-- ==== Sys2Proof/Word.lean ====
section
/-! DEFINITION. Names and sizes: the index types of the SL4020's records (00_scope.md, 6.3) and the
two bit patterns the manual treats as bits (samples, caller tags). -/

namespace Sys2Proof

/-- A byte carried unchanged: an audio sample, the silence code, a divert code. -/
abbrev Byte := BitVec 8

/-- A 16-bit value the part does not interpret (the caller tag), or the random generator (R121). -/
abbrev Half := BitVec 16

/-- A position, 0..47 (00_scope.md, 6.3). -/
abbrev Position := Fin 48

/-- A call slot, 0..63. -/
abbrev Slot := Fin 64

/-- A generation, 0..15; the one count that wraps (R27). -/
abbrev Generation := Fin 16

/-- A group, 0..15. -/
abbrev Group := Fin 16

/-- A station ID, 0..14. -/
abbrev Station := Fin 15

/-- A trunk number, 0..255. -/
abbrev Trunk := Fin 256

/-- A stream, 0..15: beds are 0..3, voices are 4..15 (R82). -/
abbrev StreamId := Fin 16

/-- A bed, 0..3. -/
abbrev Bed := Fin 4

/-- A voice, 0..11. -/
abbrev Voice := Fin 12

/-- A set of station IDs, one flag a station. -/
abbrev StationSet := Vector Bool 15

/-- The least of `m` and `n`: a quantity that saturates at `m` (00_scope.md, 6.2). -/
def saturate (m n : Nat) : Nat := if n ≤ m then n else m

/-- A report accumulator counts 1 and stops at 65535 (00_scope.md, 6.2). -/
def count1 (n : Nat) : Nat := saturate 65535 (n + 1)

/-- A report accumulator adds and stops at 65535. -/
def countBy (n k : Nat) : Nat := saturate 65535 (n + k)

end Sys2Proof
end

