-- ==== Sys2Proof/Syntax.lean ====
section
/-! DEFINITION. The commands of the block: one constructor for each row of spec/opcode_table.json, with
the operands the row's rule gives it. Operands that the part itself range-checks (R4, R5, R30, R123)
are plain numbers; those that are always in range are index types. -/

namespace Sys2Proof

/-- How far a clocked transaction goes in one command (R165). An ITEM is one field of a REPORT, the
directive of a TAKE, the cause and detail of an ATTENTION, the count or one position of a CHANGES. -/
inductive Clocking where
  /-- Select falls, the command bytes and then this many items are wholly clocked, and select rises. -/
  | through (items : Nat)
  /-- Select falls and the command bytes are wholly clocked in; the transaction stays open. -/
  | opens
  /-- The first bit of the next item of the open transaction is driven. -/
  | firstBit
  /-- The last bit of that item is clocked out. -/
  | lastBit
deriving DecidableEq, Repr

/-- How far a RESTART goes in one command (R166). Its one item is the outcome byte, with which the command gives what the
frame sync input will be found as at the rise of select, the moment of the reset (R115; log entry 8). -/
inductive RestartClocking where
  /-- Select falls, the command bytes and then this many bytes are wholly clocked, and select rises. -/
  | through (bytes : Nat) (sync : Bool)
  /-- Select falls and the command bytes are wholly clocked in; the transaction stays open. -/
  | opens
  /-- The first bit of the outcome byte is driven. -/
  | firstBit
  /-- The last bit of the outcome byte is clocked out. -/
  | lastBit (sync : Bool)
deriving DecidableEq, Repr

/-- Which tier a tier deadline raises the call to (R41). -/
inductive TierStep where
  | one | two
deriving DecidableEq, Repr

/-- Source and destination of a received frame as they stand on the line (R122). -/
structure Header where
  source : Nat
  dest : Nat
deriving DecidableEq, Repr

/-- A call reference as it stands in a frame (R122). -/
structure RawRef where
  home : Nat
  slot : Nat
  gen : Nat
deriving DecidableEq, Repr

/-- A group entry as it stands in a SUMMARY (R122). -/
structure RawEntry where
  group : Nat
  ready : Nat
  best : Nat
  waiting : Nat
  age : Nat
deriving DecidableEq, Repr

/-- The last field of an EVENT, whose last bit is the completion point (R166), with how many whole bytes the shelf
processor clocks after it before it raises select (R165). -/
structure LastField (α : Type) where
  value : α
  clocked : Nat
deriving DecidableEq, Repr

/-- The commands of the block, in the order of spec/opcode_table.json. -/
inductive Instr where
  /-- POWER_ON: the power-on reset, with whether the frame sync input is then seen (R181, R113). -/
  | powerOn (sync : Bool)
  /-- RESTART: the event and its select rise, with whether the frame sync input is then seen (R166, R115). -/
  | restart (clocking : RestartClocking)
  /-- LOAD_READ_ARRIVES: the bytes of the configuration read; the read's own length says how many count (R177). -/
  | loadReadArrives (bytes : Vector Byte 32)
  /-- TRUNK_SEIZE (R31). -/
  | trunkSeize (trunk : Trunk) (group priority : Nat) (tag : LastField Half)
  /-- TRUNK_ANSWERED (R33). -/
  | trunkAnswered (trunk : LastField Trunk)
  /-- TRUNK_RELEASE (R35). -/
  | trunkRelease (trunk : LastField Trunk)
  /-- AGENT_LOGIN: position and membership list of (group, proficiency); more than four entries stand
  for an entry count above 4 (R5, R166). -/
  | agentLogin (position : Nat) (members : LastField (List (Nat × Nat)))
  /-- AGENT_LOGOUT (R12). -/
  | agentLogout (position : LastField Nat)
  /-- AGENT_READY (R6). -/
  | agentReady (position : LastField Nat)
  /-- AGENT_NOT_READY (R7). -/
  | agentNotReady (position : Nat) (reason : LastField Nat)
  /-- AGENT_ANSWER (R8). -/
  | agentAnswer (position : LastField Nat)
  /-- AGENT_CLEAR (R9). -/
  | agentClear (position : LastField Nat)
  /-- WRAP_DONE (R10). -/
  | wrapDone (position : LastField Nat)
  /-- WRAP_EXTEND (R11). -/
  | wrapExtend (position : LastField Nat)
  /-- UNKNOWN_EVENT_KIND: an EVENT whose kind byte is none of the twelve (R166). -/
  | unknownEventKind (kind : LastField Nat)
  /-- TAKE (R168). -/
  | take (clocking : Clocking)
  /-- REPORT AGENT from a start field (R170, R24). -/
  | reportAgent (position start : Nat) (clocking : Clocking)
  /-- REPORT GROUP from a start field (R170, R171). -/
  | reportGroup (group start : Nat) (clocking : Clocking)
  /-- REPORT STATION from a start field; its subject byte is not used (R170, R171). -/
  | reportStation (start : Nat) (clocking : Clocking)
  /-- REPORT of an unknown kind or an out-of-range subject (R170). -/
  | reportUnknownKind (kind subject start : Nat) (clocking : Clocking)
  /-- ATTENTION (R173). -/
  | attention (clocking : Clocking)
  /-- CHANGES (R174). -/
  | changes (clocking : Clocking)
  /-- A command byte that names none of the five, and how many bytes are clocked after it (R165). -/
  | unknownCommand (command clocked : Nat)
  /-- Select rises on whatever transaction is open (R165). -/
  | transactionAbort
  /-- HIGHWAY_FRAME: a frame sync (R113). -/
  | highwayFrame
  /-- FALLBACK_FRAME: a frame of the internal oscillator (R114). -/
  | fallbackFrame
  /-- DECISECOND (R113, R145). -/
  | decisecond
  /-- SECOND_BOUNDARY (R21). -/
  | secondBoundary
  /-- WINDOW_HALF_BOUNDARY: the second boundary that brings the window-half count to H (R22, R113). -/
  | windowHalfBoundary
  /-- SYNC_LOST: 2 ms without frame sync (R114). -/
  | syncLost
  /-- SYNC_RETURNS (R115). -/
  | syncReturns
  /-- STREAM_FRAME_OUTPUT of one stream in the present frame (R110). -/
  | streamFrameOutput (stream : StreamId)
  /-- READ_ARRIVES: the bytes of the in-flight stream read; the read's own count says how many count (R108). -/
  | readArrives (bytes : Vector Byte 32)
  /-- ALERT_DEADLINE (R16). -/
  | alertDeadline (position : Position)
  /-- RONA: the release itself (R16). -/
  | rona (position : Position)
  /-- WRAP_EXPIRY (R18). -/
  | wrapExpiry (position : Position)
  /-- GRACE_DEADLINE (R19). -/
  | graceDeadline (position : Position)
  /-- TIER_DEADLINE (R41). -/
  | tierDeadline (slot : Slot) (tier : TierStep)
  /-- MAX_WAIT_DEADLINE (R43). -/
  | maxWaitDeadline (slot : Slot)
  /-- DIVERT: a due divert is taken (R44). -/
  | divert (slot : Slot)
  /-- RETRY_PASS (R77). -/
  | retryPass
  /-- STEP_DEADLINE (R84, R86, R88, R89, R92). -/
  | stepDeadline (slot : Slot)
  /-- TREATMENT_RESUME (R98). -/
  | treatmentResume
  /-- BUS_ATTEMPT: the line stays recessive for the interframe gap and then this many whole slots (R119, R120). -/
  | busAttempt (slots : Nat)
  /-- FRAME_SENT (R119). -/
  | frameSent
  /-- COLLISION (R120). -/
  | collision
  /-- FRAME_CHECK_ERROR: the run of bytes the receiver took (R123). -/
  | frameCheckError (bytes : List Byte)
  /-- SUMMARY received (R136). -/
  | summary (header : Header) (entries : List RawEntry)
  /-- OFFER received (R153). -/
  | offer (header : Header) (ref : RawRef) (group priority tier : Nat) (tag : Half) (age : Nat)
  /-- CLAIM received: group, agent reference (station, position), score (R161). -/
  | claim (header : Header) (group station position score : Nat)
  /-- ACCEPT received (R150). -/
  | accept (header : Header) (ref : RawRef) (position score : Nat)
  /-- DECLINE received, with its reason code (R151). -/
  | decline (header : Header) (ref : RawRef) (reason : Nat)
  /-- CANCEL received (R159). -/
  | cancel (header : Header) (ref : RawRef)
  /-- ANSWERED received (R156). -/
  | answered (header : Header) (ref : RawRef) (position : Nat)
  /-- RETURNED received (R157). -/
  | returned (header : Header) (ref : RawRef) (position : Nat)
  /-- NOCALL received (R162). -/
  | nocall (header : Header) (group position : Nat)
  /-- OFFER_DEADLINE (R152). -/
  | offerDeadline (slot : Slot)
  /-- ANSWER_WATCH_EXPIRY (R158). -/
  | answerWatchExpiry (slot : Slot)
  /-- CLAIM_DEADLINE (R163). -/
  | claimDeadline (position : Position)
  /-- JOIN_DEADLINE (R130). -/
  | joinDeadline
  /-- PROBE_DEADLINE (R131). -/
  | probeDeadline
  /-- ABSENCE_DEADLINE (R137). -/
  | absenceDeadline (peer : Station)
  /-- HOLD_DEADLINE (R145 step 1). -/
  | holdDeadline
  /-- PERIOD_DEADLINE (R145 step 3). -/
  | periodDeadline
  /-- ATTENTION_PULSE_END (R175). -/
  | attentionPulseEnd
deriving DecidableEq, Repr

end Sys2Proof
end

