-- ==== Sys2Proof/Decode.lean ====
section
/-! DEFINITION. The commands that words and bytes spell. The opcode table of this block gives its rows no bits,
so no word of the table spells a command. What the shelf processor clocks in on the Shelf Port does spell one
(R165, R166, 11.5): `shelfCommand` reads it and `shelfBytes` writes it. The byte layouts of bus frames stand in
Machine/Operands.lean. -/

namespace Sys2Proof

/-- The command a word spells by the table's bits: none, for the table gives no row any. -/
def decodeTableWord (_nbits _w : Nat) : Option Instr := none

/-- A byte of a transaction. -/
def portByte (n : Nat) : Byte := BitVec.ofNat 8 n

/-- A trunk number as its byte gives it; every byte names one (R30). -/
def trunkOf (b : Byte) : Trunk := ⟨b.toNat, b.isLt⟩

/-- The (group, proficiency) pairs of a membership list, two bytes each. -/
def pairsOf : List Byte → List (Nat × Nat)
  | g :: p :: rest => (g.toNat, p.toNat) :: pairsOf rest
  | [_] | [] => []

/-- The command of an EVENT's bytes from the event kind on. Bytes beyond the event's fields are not used
(R165). Bytes short of the completion point leave an aborted event (R166). `items` is how many items are
clocked after them: whole bytes of the outcome, and zero bytes after it. The clocks of unused bytes clock nothing out
(DESIGN CHOICE, unsafe, log entry 48). `sync` is what the reset of a RESTART finds the sync input as. -/
def eventCommand (items : Nat) (sync : Bool) : List Byte → Instr
  | [] => .transactionAbort
  | kind :: fields =>
    match kind.toNat, fields with
    | 1, t :: g :: p :: hi :: lo :: _ => .trunkSeize (trunkOf t) g.toNat p.toNat ⟨hi ++ lo, items⟩
    | 2, t :: _ => .trunkAnswered ⟨trunkOf t, items⟩
    | 3, t :: _ => .trunkRelease ⟨trunkOf t, items⟩
    | 4, p :: n :: entries =>
      if 4 < n.toNat then .agentLogin p.toNat ⟨List.replicate n.toNat (0, 0), items⟩
      else if entries.length < 2 * n.toNat then .transactionAbort
      else .agentLogin p.toNat ⟨pairsOf (entries.take (2 * n.toNat)), items⟩
    | 5, p :: _ => .agentLogout ⟨p.toNat, items⟩
    | 6, p :: _ => .agentReady ⟨p.toNat, items⟩
    | 7, p :: r :: _ => .agentNotReady p.toNat ⟨r.toNat, items⟩
    | 8, p :: _ => .agentAnswer ⟨p.toNat, items⟩
    | 9, p :: _ => .agentClear ⟨p.toNat, items⟩
    | 10, p :: _ => .wrapDone ⟨p.toNat, items⟩
    | 11, p :: _ => .wrapExtend ⟨p.toNat, items⟩
    | 12, _ => .restart (.through items sync)
    | k, _ => if 1 ≤ k ∧ k ≤ 12 then .transactionAbort else .unknownEventKind ⟨k, items⟩

/-- The command of a REPORT's bytes from the report kind on (R170, 11.5). -/
def reportCommand (items : Nat) : List Byte → Instr
  | kind :: subject :: start :: _ =>
    match kind.toNat with
    | 1 => if subject.toNat < 48 then .reportAgent subject.toNat start.toNat (.through items)
           else .reportUnknownKind 1 subject.toNat start.toNat (.through items)
    | 2 => if subject.toNat < 16 then .reportGroup subject.toNat start.toNat (.through items)
           else .reportUnknownKind 2 subject.toNat start.toNat (.through items)
    | 3 => .reportStation start.toNat (.through items)
    | k => .reportUnknownKind k subject.toNat start.toNat (.through items)
  | _ => .transactionAbort

/-- A whole transaction, from the fall of select to its rise: the bytes clocked in, and how many items are
clocked after them (R165, 11.5). Bytes beyond those the transaction uses are ignored; DESIGN CHOICE: so are their clocks,
and only `items` says what is clocked out; unsafe, log entry 48. `sync` is what the sync input is found as by the reset of a
RESTART (R115), which no byte spells. -/
def shelfCommand (bytes : List Byte) (items : Nat) (sync : Bool) : Instr :=
  match bytes with
  | [] => .transactionAbort
  | command :: rest =>
    match command.toNat with
    | 1 => eventCommand items sync rest
    | 2 => .take (.through items)
    | 3 => reportCommand items rest
    | 4 => .attention (.through items)
    | 5 => .changes (.through items)
    | k => .unknownCommand k items

/-- The two bytes of a caller tag, most significant first (DESIGN CHOICE, unsafe: 11.5 gives the Shelf Port's
fields no byte order; log entry 43). -/
def tagBytes (tag : Half) : List Byte := [tag.extractLsb' 8 8, tag.extractLsb' 0 8]

/-- An EVENT with its kind and field bytes, and the bytes clocked after them (11.5). -/
def eventBytes (kind : Nat) (fields : List Byte) (clocked : Nat) : Option (List Byte × Nat) :=
  some (1 :: portByte kind :: fields, clocked)

/-- A REPORT with its kind, subject and start field (11.5). -/
def reportBytes (kind subject start : Nat) : Clocking → Option (List Byte × Nat)
  | .through items => some ([3, portByte kind, portByte subject, portByte start], items)
  | .opens | .firstBit | .lastBit => none

/-- A transaction of one command byte, wholly clocked. -/
def plainBytes (command : Byte) : Clocking → Option (List Byte × Nat)
  | .through items => some ([command], items)
  | .opens | .firstBit | .lastBit => none

/-- The bytes that spell a command on the Shelf Port, with the items clocked after them (11.5). None for the
commands of the other interfaces, and for a transaction commanded in parts. -/
def shelfBytes : Instr → Option (List Byte × Nat)
  | .trunkSeize t g p ⟨tag, n⟩ => eventBytes 1 ([portByte t.val, portByte g, portByte p] ++ tagBytes tag) n
  | .trunkAnswered ⟨t, n⟩ => eventBytes 2 [portByte t.val] n
  | .trunkRelease ⟨t, n⟩ => eventBytes 3 [portByte t.val] n
  | .agentLogin p ⟨ms, n⟩ =>
    if ms.length ≤ 4 then
      eventBytes 4 (portByte p :: portByte ms.length :: ms.flatMap fun m => [portByte m.1, portByte m.2]) n
    else none
  | .agentLogout ⟨p, n⟩ => eventBytes 5 [portByte p] n
  | .agentReady ⟨p, n⟩ => eventBytes 6 [portByte p] n
  | .agentNotReady p ⟨r, n⟩ => eventBytes 7 [portByte p, portByte r] n
  | .agentAnswer ⟨p, n⟩ => eventBytes 8 [portByte p] n
  | .agentClear ⟨p, n⟩ => eventBytes 9 [portByte p] n
  | .wrapDone ⟨p, n⟩ => eventBytes 10 [portByte p] n
  | .wrapExtend ⟨p, n⟩ => eventBytes 11 [portByte p] n
  | .restart (.through items _) => some ([1, 12], items)
  | .restart .opens | .restart .firstBit | .restart (.lastBit _) => none
  | .unknownEventKind ⟨k, n⟩ => eventBytes k [] n
  | .take c => plainBytes 2 c
  | .reportAgent p f c => reportBytes 1 p f c
  | .reportGroup g f c => reportBytes 2 g f c
  | .reportStation f c => reportBytes 3 0 f c
  | .reportUnknownKind k x f c => reportBytes k x f c
  | .attention c => plainBytes 4 c
  | .changes c => plainBytes 5 c
  | .unknownCommand k n => some ([portByte k], n)
  | .transactionAbort => some ([], 0)
  | .powerOn _ | .loadReadArrives _ | .highwayFrame | .fallbackFrame | .decisecond | .secondBoundary => none
  | .windowHalfBoundary | .syncLost | .syncReturns | .streamFrameOutput _ | .readArrives _ => none
  | .alertDeadline _ | .rona _ | .wrapExpiry _ | .graceDeadline _ | .tierDeadline .. | .maxWaitDeadline _ => none
  | .divert _ | .retryPass | .stepDeadline _ | .treatmentResume | .busAttempt _ | .frameSent | .collision => none
  | .frameCheckError _ | .summary .. | .offer .. | .claim .. | .accept .. | .decline .. | .cancel .. => none
  | .answered .. | .returned .. | .nocall .. | .offerDeadline _ | .answerWatchExpiry _ | .claimDeadline _ => none
  | .joinDeadline | .probeDeadline | .absenceDeadline _ | .holdDeadline | .periodDeadline | .attentionPulseEnd => none

end Sys2Proof
end

