-- ==== Sys2Proof/Config.lean ====
section
/-! DEFINITION. What the configuration image gives a station (Chapter 11), and the sizes the manual
fixes. The spec leaves no result undefined, so there is no free value here. -/

namespace Sys2Proof

/-- The kinds of figure a BRANCH reads (R95). -/
inductive BranchOn where
  | positionBucket | ewtBucket | tier | priority | visit
deriving DecidableEq, Repr

/-- The kinds of value a SAY_VALUE speaks (R91). -/
inductive SayOf where
  | position | ewtMinutes
deriving DecidableEq, Repr

/-- A step of the treatment table (R80). Clips, lists and targets are the numbers the image gives; the
load has checked them (R178). -/
inductive TreatStep where
  | bed (bed : Bed) (seconds : Nat)
  | say (clip : Nat)
  | sayValue (of : SayOf) (base : Nat)
  | silence (seconds : Nat)
  | repeatNext (count : Nat)
  | branch (on : BranchOn) (targets : List Nat)
  | nest (list : Nat)
  | endList
deriving DecidableEq, Repr

/-- BED, SAY, SAY_VALUE and SILENCE are the timed steps (R80). -/
def TreatStep.timed : TreatStep → Bool
  | .bed .. | .say .. | .sayValue .. | .silence .. => true
  | .repeatNext .. | .branch .. | .nest .. | .endList => false

/-- A treatment list: its steps, and the step a top-level END returns to (R79). -/
structure TreatList where
  steps : List TreatStep
  loopIndex : Nat
deriving DecidableEq, Repr

/-- A present entry of the clip directory (R103). -/
structure Clip where
  start : Nat
  length : Nat
deriving DecidableEq, Repr

/-- A group record (R176), with the ranges of R179. -/
structure GroupRec where
  defined : Bool
  wrapBudget : Nat
  extension : Nat
  graceLimit : Nat
  autoReady : Bool
  alertTime : Nat
  t1 : Nat
  t2 : Nat
  maxWait : Nat
  overflow : Option Group
  wIdle : Nat
  wOcc : Nat
  initialAht : Nat
  ewtAt : Nat × Nat × Nat
  posAt : Nat × Nat × Nat
  treatment : Nat
  fallback : Bed
  divertCode : Byte
deriving DecidableEq, Repr

/-- A group record with nothing set: what an absent group record reads as. -/
def GroupRec.absent : GroupRec where
  defined := false
  wrapBudget := 0
  extension := 0
  graceLimit := 0
  autoReady := false
  alertTime := 0
  t1 := 0
  t2 := 0
  maxWait := 0
  overflow := none
  wIdle := 0
  wOcc := 0
  initialAht := 180
  ewtAt := (0, 0, 0)
  posAt := (0, 0, 0)
  treatment := 0
  fallback := 0
  divertCode := 0

/-- What the blocks hold of a loaded image (R176, R180): present from the end of a load without a fault
until the next reset. -/
structure Configuration where
  seed : Half
  margin : Nat
  windowHalf : Nat
  offerTimeout : Nat
  claimTimeout : Nat
  joinInterval : Nat
  brisk : Nat
  easy : Nat
  slow : Nat
  briskHold : Nat
  easyHold : Nat
  pulseMode : Bool
  silence : Byte
  divisor : Nat
  groups : Vector GroupRec 16
  lists : Vector (Option TreatList) 32
  directory : Vector (Option Clip) 128
  playlists : Vector (List Nat) 4
deriving DecidableEq, Repr

/-- What the configuration reads as while it is absent (R3, R28, R48, R63, R79, R103, R147). No event
that uses a figure of it is taken then (R4, R30, R123). -/
def Configuration.absent : Configuration where
  seed := 0
  margin := 0
  windowHalf := 0
  offerTimeout := 0
  claimTimeout := 0
  joinInterval := 0
  brisk := 0
  easy := 0
  slow := 0
  briskHold := 0
  easyHold := 0
  pulseMode := false
  silence := 0
  divisor := 2048
  groups := Vector.replicate 16 GroupRec.absent
  lists := Vector.replicate 32 none
  directory := Vector.replicate 128 none
  playlists := Vector.replicate 4 []

/-- The directive queue holds at most 32 directives (R167). -/
def directiveCapacity : Nat := 32

/-- A distribution attempt needs 8 free directive entries (R75). -/
def attemptRoom : Nat := 8

/-- The reply queue and the ordinary queue hold at most 8 frames each (R125). -/
def laneCapacity : Nat := 8

/-- The claim table holds at most 8 records (R147). -/
def claimCapacity : Nat := 8

/-- Station time saturates at 2^32 - 1 deciseconds (R113). -/
def lastDecisecond : Nat := 4294967295

/-- A frame is dropped at its 16th collision (R120). -/
def lastAttempt : Nat := 16

/-- The FIFO of a stream (R104) and the size of a full read (R107). -/
def fifoSize : Nat := 64

/-- A read moves up to 32 bytes, and a stream asks at a level of 32 or less (R107). -/
def readSize : Nat := 32

end Sys2Proof
end

