-- ==== Sys2Proof/Machine/State.lean ====
section
/-! DEFINITION. The state of one SL4020 as plain data, block by block, and its reset value. A field that
the manual says is present only in some states is carried by those states' constructors, so that it is
absent in the others by construction. -/

namespace Sys2Proof.Machine

/-- No event of this block stops it, so there is no fault: a command the manual does not take is answered
with an outcome byte, a counter or no change, all of them next states. (Safe.) -/
inductive Fault where
deriving DecidableEq, Repr

/-- Reasons a command has no meaning. -/
inductive Refusal where
  /-- Raised by `exec`'s arm for a command that has no meaning yet. Safe. No arm raises it. -/
  | notModelled (mnemonic : String)
deriving DecidableEq, Repr

/-- The bus-wide name of a call: home station, slot, generation (R27). -/
structure CallRef where
  home : Station
  slot : Slot
  gen : Generation
deriving DecidableEq, Repr

/-- What ties an agent to a call (R1). -/
structure Binding where
  ref : CallRef
  group : Group
  isLocal : Bool
deriving DecidableEq, Repr

/-- The after-call work of a record in WRAP or WRAP_OVER: wrap group and the seconds of this wrap (R1). -/
structure WrapWork where
  group : Group
  wrapS : Nat
  overS : Nat
deriving DecidableEq, Repr

/-- The eight states of an agent record, each with the fields it carries (R1). -/
inductive AgentState where
  | loggedOut
  | notReady (reason : Nat)
  | ready (since : Nat)
  | claiming (since : Nat)
  | alerting (since : Nat) (binding : Binding) (deadline : Nat)
  | talking (binding : Binding)
  | wrap (work : WrapWork) (ends : Nat)
  | wrapOver (work : WrapWork) (since : Nat)
deriving DecidableEq, Repr

/-- One entry of a membership list (R2). -/
structure Membership where
  group : Group
  proficiency : Nat
deriving DecidableEq, Repr

/-- The five accumulators of an agent record (R1). -/
structure AgentCounts where
  answered : Nat
  talk : Nat
  wrap : Nat
  overrun : Nat
  rona : Nat
deriving DecidableEq, Repr

/-- An agent record (R1). `members` is empty exactly where the manual says the list is absent. -/
structure Agent where
  state : AgentState
  members : List Membership
  talkS : Nat
  extensionUsed : Bool
  busyCur : Nat
  busyPrev : Nat
  debtCur : Nat
  debtPrev : Nat
  counts : AgentCounts
  changed : Bool
  deferred : Bool
deriving DecidableEq, Repr

/-- Where the caller hears its treatment (R81). -/
inductive HeardOn where
  | nothing
  | bed (bed : Bed)
  | voice (voice : Voice)
  | silence
deriving DecidableEq, Repr

/-- Where a nested walk returns to, and its runs left when a REPEAT governed the NEST (R81, R96). -/
structure ReturnPoint where
  list : Nat
  index : Nat
  runs : Option Nat
deriving DecidableEq, Repr

/-- A treatment context (R81). -/
structure Context where
  list : Nat
  index : Nat
  repeats : Option Nat
  back : Option ReturnPoint
  heard : HeardOn
  deadline : Option Nat
  digits : Option (List Nat)
  visits : Nat
  control : Nat
  held : Bool
deriving DecidableEq, Repr

/-- The state of an occupied call record with its mark detail (R26, R29). OFFERED also carries the offer
group the Exchange Engine keeps for the slot exactly while the call is OFFERED (R147). -/
inductive CallState where
  | waiting
  | offered (peer : Station) (deadline : Nat) (group : Group)
  | alertingLocal (position : Position)
  | alertingRemote (peer : Station) (position : Position) (watch : Nat)
  | connected
deriving DecidableEq, Repr

/-- The fields of an occupied call record (R26). -/
structure Call where
  trunk : Trunk
  group : Group
  priority : Fin 4
  tag : Half
  arrival : Nat
  state : CallState
  tier : Fin 3
  declined : StationSet
  divertPending : Bool
  context : Option Context
deriving DecidableEq, Repr

/-- A call slot: the two fields every slot keeps, and the call while it is occupied (R26). -/
structure CallSlot where
  gen : Generation
  deferred : Bool
  call : Option Call
deriving DecidableEq, Repr

/-- The seven accumulators of a group (R46). -/
structure GroupCounts where
  offeredIn : Nat
  answeredLocal : Nat
  answeredByPeers : Nat
  takenFromPeers : Nat
  abandoned : Nat
  diverted : Nat
  ronaReturns : Nat
deriving DecidableEq, Repr

/-- The Treatment Engine's own state (R82). -/
structure Treatment where
  voices : Vector (Option Slot) 12
  listeners : Vector Nat 4
  holdList : List Slot
  shortages : Nat
  stalls : Nat
deriving DecidableEq, Repr

/-- The fields of a stream present exactly while it is active (R104). A voice stream has no indexes. -/
structure Playing where
  clip : Nat
  indexes : Option (Nat × Nat)
  nextAddr : Nat
  bytesLeft : Nat
  samplesLeft : Nat
deriving DecidableEq, Repr

/-- A stream record (R104): active exactly when `playing` is present; its level is the FIFO's length. The
epoch counts its starts and stops. -/
structure Stream where
  playing : Option Playing
  fifo : List Byte
  started : Bool
  underruns : Nat
  epoch : Nat
deriving DecidableEq, Repr

/-- The in-flight read (R107). -/
structure InFlight where
  stream : StreamId
  epoch : Nat
  addr : Nat
  count : Nat
deriving DecidableEq, Repr

/-- The Clip Fetch Unit (R104, R107). `frameCursor` is the model's own: the streams from it on have not
yet had their event in the present frame (R110). -/
structure ClipFetch where
  streams : Vector Stream 16
  lastServed : StreamId
  inFlight : Option InFlight
  frameCursor : Nat
deriving DecidableEq, Repr

/-- The Timebase (R113). `dsDue` and `secondsDue` are the model's own: boundaries the count has declared
and whose event is not yet taken. -/
structure Timebase where
  ds : Nat
  frames : Nat
  windowCount : Nat
  running : Bool
  syncPresent : Bool
  clockLoss : Bool
  divisor : Nat
  dsDue : Nat
  secondsDue : Nat
deriving DecidableEq, Repr

/-- A group entry of a SUMMARY or of a peer row (R122, R134). -/
structure Entry where
  group : Group
  ready : Nat
  best : Nat
  waiting : Nat
  age : Nat
deriving DecidableEq, Repr

/-- The reasons of a DECLINE (R122). -/
inductive DeclineReason where
  | noAgent | notServed | noRoom
deriving DecidableEq, Repr

/-- The nine kinds of frame with their payloads (R122). -/
inductive Body where
  | summary (entries : List Entry)
  | offer (ref : CallRef) (group : Group) (priority : Nat) (tier : Fin 3) (tag : Half) (age : Nat)
  | claim (group : Group) (station : Station) (position : Position) (score : Nat)
  | accept (ref : CallRef) (position : Position) (score : Nat)
  | decline (ref : CallRef) (reason : DeclineReason)
  | cancel (ref : CallRef)
  | answered (ref : CallRef) (position : Position)
  | returned (ref : CallRef) (position : Position)
  | nocall (group : Group) (position : Position)
deriving DecidableEq, Repr

/-- A frame as it stands on the line, with every field in its range: source, destination (15 is all stations), and
the kind with its payload (R122). SYNC, LEN and CHECK follow from these. -/
structure Frame where
  source : Station
  dest : Fin 16
  body : Body
deriving DecidableEq, Repr

/-- A queued frame as its queuing block gives it: its destination and its body (R122, R125). -/
structure OutFrame where
  dest : Fin 16
  body : Body
deriving DecidableEq, Repr

/-- The three outbound queues (R125). -/
inductive Lane where
  | reply | ordinary | summary
deriving DecidableEq, Repr

/-- The station state with the deadlines and the isolation cause it carries (R128). -/
inductive StationState where
  | starting
  | unconfigured
  | joining (deadline : Nat)
  | active
  | busFault (probe : Nat)
  | duplicateId
deriving DecidableEq, Repr

/-- The isolation causes (R128). -/
inductive IsolationCause where
  | busFault | duplicateId
deriving DecidableEq, Repr

/-- The Bus Controller (R118, R121, R125, R126, R128, R133). `line` is the frame this station's
attempt is sending, its source filled in (R119, R122); `beside` is the new summary content that arrived during an attempt of the old (R126);
`sentFirstByte` says that this station was sending during the first byte of the frame its receiver is
following (R124 step 2). -/
structure Bus where
  station : StationState
  id : Option Station
  inHand : Option Lane
  attempts : Nat
  backoff : Option Nat
  dropRun : Nat
  line : Option Frame
  sentFirstByte : Bool
  rng : Option Half
  replies : List OutFrame
  ordinary : List OutFrame
  slot : Option (List Entry)
  beside : Option (List Entry)
  framesSent : Nat
  framesReceived : Nat
  checkErrors : Nat
  collisions : Nat
  dropped : Nat
  repliesLost : Nat
deriving DecidableEq, Repr

/-- A claim record (R147). -/
structure Claim where
  position : Position
  peer : Station
  group : Group
  deadline : Nat
deriving DecidableEq, Repr

/-- The Exchange Engine's own state (R147). -/
structure Exchange where
  claims : List Claim
  stale : Nat
deriving DecidableEq, Repr

/-- A present peer row (R134). -/
structure PeerRow where
  absence : Nat
  receipt : Option Nat
  entries : List Entry
deriving DecidableEq, Repr

/-- The Peer View (R134): a row is present exactly when it is `some`. -/
structure PeerView where
  rows : Vector (Option PeerRow) 15
  changed : StationSet
deriving DecidableEq, Repr

/-- The cadence ladder (R142). -/
inductive Cadence where
  | brisk | easy | slow
deriving DecidableEq, Repr

/-- The Summary Builder (R142). -/
structure Builder where
  cadence : Cadence
  period : Option Nat
  hold : Option Nat
  lastPlacement : Option Nat
  lastSent : Option (List Entry)
deriving DecidableEq, Repr

/-- The directives (R167). -/
inductive Directive where
  | listen (trunk : Trunk) (slot : Nat)
  | route (trunk : Trunk) (station : Station) (position : Position)
  | unroute (trunk : Trunk)
  | alert (position : Position) (home : Station) (tag : Half)
  | withdraw (position : Position)
  | divert (trunk : Trunk) (code : Byte)
deriving DecidableEq, Repr

/-- The entries of the room-wait list (R169). -/
inductive RoomWait where
  | rona (position : Position)
  | watch (slot : Slot)
  | divert (slot : Slot)
deriving DecidableEq, Repr

/-- What a REPORT is about (R170); `unknown` gives zero bytes for every field. -/
inductive ReportOf where
  | agent (position : Position)
  | group (group : Group)
  | station
  | unknown
deriving DecidableEq, Repr

/-- The attention causes, in priority order (R172). -/
inductive Cause where
  | loadFault | clockLoss | isolated | peerChange | directivesPending | agentChange
deriving DecidableEq, Repr

/-- The open transaction and what it has latched (R165 to R174). -/
inductive Transaction where
  /-- Select is high, or the transaction has nothing more to do. -/
  | idle
  /-- A TAKE: the directive at the head when the command byte was clocked in (R168). -/
  | take (driven : Option Directive) (done : Bool)
  /-- A REPORT: the next field and its value once its first bit is driven (R170). -/
  | report (about : ReportOf) (field : Nat) (latched : Option (List Byte))
  /-- An ATTENTION: the cause and detail once their first bit is driven (R173). -/
  | attention (latched : Option (Option Cause × Nat)) (done : Bool)
  /-- A CHANGES: the positions listed when the command byte was clocked in, and the next item (R174). -/
  | changes (list : List Position) (item : Nat)
  /-- A RESTART event: absent until its outcome byte has been wholly clocked out, then what the frame sync input will be
  found as at the rise of select (R166, R115). -/
  | restart (found : Option Bool)
deriving DecidableEq, Repr

/-- The Shelf Port (R167, R169, R172, R175). `out` is the record of the bytes the part has driven in the
last transaction. -/
structure Port where
  directives : List Directive
  waits : List RoomWait
  loadFault : Option Nat
  isolated : Option IsolationCause
  pulse : Bool
  transaction : Transaction
  out : List Byte
deriving DecidableEq, Repr

/-- The load unit: what a running load has read (R177), and the clamped-values counter (R179). -/
structure LoadUnit where
  reading : Option (List Byte × Nat)
  clamped : Nat
deriving DecidableEq, Repr

/-- The whole block. -/
structure State where
  cfg : Option Configuration
  load : LoadUnit
  time : Timebase
  agents : Vector Agent 48
  calls : Vector CallSlot 64
  queues : Vector (List Slot) 16
  counts : Vector GroupCounts 16
  aht : Vector Nat 16
  deferrals : Nat
  treat : Treatment
  clips : ClipFetch
  highway : Vector (Option Byte) 32
  exch : Exchange
  peers : PeerView
  builder : Builder
  bus : Bus
  port : Port
  pending : List Instr
deriving DecidableEq, Repr

/-- An agent record after reset (R3). -/
def Agent.reset : Agent where
  state := .loggedOut
  members := []
  talkS := 0
  extensionUsed := false
  busyCur := 0
  busyPrev := 0
  debtCur := 0
  debtPrev := 0
  counts := ⟨0, 0, 0, 0, 0⟩
  changed := false
  deferred := false

/-- The state after a reset (R181) that finds the frame sync input as `sync` says (R113). DESIGN CHOICE: a Shelf Port
transaction open at the reset has ended, the spec giving it no reset value; unsafe, log entry 45. -/
def State.resetWith (sync : Bool) : State where
  cfg := none
  load := { reading := some ([], 0), clamped := 0 }
  time := { ds := 0, frames := 0, windowCount := 0, running := false, syncPresent := sync, clockLoss := false,
            divisor := 2048, dsDue := 0, secondsDue := 0 }
  agents := Vector.replicate 48 Agent.reset
  calls := Vector.replicate 64 ⟨0, false, none⟩
  queues := Vector.replicate 16 []
  counts := Vector.replicate 16 ⟨0, 0, 0, 0, 0, 0, 0⟩
  aht := Vector.replicate 16 180
  deferrals := 0
  treat := { voices := Vector.replicate 12 none, listeners := Vector.replicate 4 0, holdList := [], shortages := 0, stalls := 0 }
  clips := { streams := Vector.replicate 16 ⟨none, [], false, 0, 0⟩, lastServed := 15, inFlight := none, frameCursor := 16 }
  highway := Vector.replicate 32 none
  exch := { claims := [], stale := 0 }
  peers := { rows := Vector.replicate 15 none, changed := Vector.replicate 15 false }
  builder := { cadence := .brisk, period := none, hold := none, lastPlacement := none, lastSent := none }
  bus := { station := .starting, id := none, inHand := none, attempts := 0, backoff := none, dropRun := 0, line := none,
           sentFirstByte := false, rng := none, replies := [], ordinary := [], slot := none, beside := none,
           framesSent := 0, framesReceived := 0, checkErrors := 0, collisions := 0, dropped := 0, repliesLost := 0 }
  port := { directives := [], waits := [], loadFault := none, isolated := none, pulse := false, transaction := .idle, out := [] }
  pending := []

/-- The machine right after reset: every block at its reset value, the load begun, no command waiting.
DESIGN CHOICE: the frame sync input is taken as seen (R113 leaves it to the input); unsafe, log entry 8. -/
def State.reset : State := State.resetWith true

end Sys2Proof.Machine
end

