-- ==== Sys2Proof/Machine/Ops.lean ====
section
/-! DEFINITION. The named operations over the block's records: reading and updating one record, placing
directives, counting. Every later file changes the state through these. -/

namespace Sys2Proof.Machine

/-- Update one element of a table. -/
def alter {α : Type} {n : Nat} (v : Vector α n) (i : Fin n) (f : α → α) : Vector α n :=
  v.set i.val (f v[i]) i.isLt

/-- Update every element of a table. -/
def alterAll {α : Type} {n : Nat} (v : Vector α n) (f : α → α) : Vector α n :=
  Vector.ofFn fun i => f v[i]

/-- Division rounded up (Chapter 3). -/
def ceilDiv (x y : Nat) : Nat := (x + y - 1) / y

/-- The high byte of a two-byte field. -/
def highByte (n : Nat) : Byte := BitVec.ofNat 8 (n / 256)

/-- The low byte of a field. -/
def lowByte (n : Nat) : Byte := BitVec.ofNat 8 n

/-- A two-byte field of the Shelf Port or of a bus frame, most significant byte first (DESIGN CHOICE, unsafe: 11.5
gives these fields no byte order, and R176's speaks of the image; log entry 43). -/
def twoBytes (n : Nat) : List Byte := [highByte n, lowByte n]

/-- A two-byte field read back, most significant byte first (log entry 43). -/
def halfOf (hi lo : Byte) : Nat := 256 * hi.toNat + lo.toNat

/-! ### Sets of stations -/

/-- The empty set of stations. -/
def noStations : StationSet := Vector.replicate 15 false

/-- Add a station to a set. -/
def withStation (set : StationSet) (p : Station) : StationSet := set.set p.val true p.isLt

/-- Whether a set holds any station. -/
def anyStation (set : StationSet) : Bool := (List.finRange 15).any fun i => set[i]

/-- A set as two bytes, bit n standing for station n: so 11.5 lays out the present-peer set of REPORT STATION, and so
the model lays out the changed set of PEER_CHANGE too (log entry 44). -/
def stationBits (set : StationSet) : Nat :=
  (List.finRange 15).foldl (fun acc i => if set[i] then acc + 2 ^ i.val else acc) 0

/-! ### Updating the blocks -/

def State.modTime (s : State) (f : Timebase → Timebase) : State := { s with time := f s.time }
def State.modTreat (s : State) (f : Treatment → Treatment) : State := { s with treat := f s.treat }
def State.modClips (s : State) (f : ClipFetch → ClipFetch) : State := { s with clips := f s.clips }
def State.modExch (s : State) (f : Exchange → Exchange) : State := { s with exch := f s.exch }
def State.modPeers (s : State) (f : PeerView → PeerView) : State := { s with peers := f s.peers }
def State.modBuilder (s : State) (f : Builder → Builder) : State := { s with builder := f s.builder }
def State.modBus (s : State) (f : Bus → Bus) : State := { s with bus := f s.bus }
def State.modPort (s : State) (f : Port → Port) : State := { s with port := f s.port }
def State.modLoad (s : State) (f : LoadUnit → LoadUnit) : State := { s with load := f s.load }
def State.setHighway (s : State) (v : Vector (Option Byte) 32) : State := { s with highway := v }
def State.setAht (s : State) (g : Group) (n : Nat) : State := { s with aht := alter s.aht g fun _ => n }
def State.setDeferrals (s : State) (n : Nat) : State := { s with deferrals := n }
def State.alterAgent (s : State) (p : Position) (f : Agent → Agent) : State := { s with agents := alter s.agents p f }
def State.alterSlot (s : State) (c : Slot) (f : CallSlot → CallSlot) : State := { s with calls := alter s.calls c f }
def State.alterQueue (s : State) (g : Group) (f : List Slot → List Slot) : State := { s with queues := alter s.queues g f }
def State.alterCounts (s : State) (g : Group) (f : GroupCounts → GroupCounts) : State := { s with counts := alter s.counts g f }

/-- Update the call of an occupied slot; a free slot stays as it is. -/
def State.alterCall (s : State) (c : Slot) (f : Call → Call) : State :=
  s.alterSlot c fun k => { k with call := k.call.map f }

/-- Update the treatment context of a call that has one. -/
def State.alterContext (s : State) (c : Slot) (f : Context → Context) : State :=
  s.alterCall c fun k => { k with context := k.context.map f }

/-! ### Reading the records -/

/-- Station time (R113). -/
def State.now (s : State) : Nat := s.time.ds

/-- The configuration, or what it reads as while it is absent. -/
def State.conf (s : State) : Configuration := s.cfg.getD Configuration.absent

/-- The group record of a group (R176). -/
def State.groupRec (s : State) (g : Group) : GroupRec := s.conf.groups[g]

/-- The record of a position. -/
def State.agent (s : State) (p : Position) : Agent := s.agents[p]

/-- The record of a call slot. -/
def State.slotRec (s : State) (c : Slot) : CallSlot := s.calls[c]

/-- The call of a slot, while it is occupied. -/
def State.callAt (s : State) (c : Slot) : Option Call := s.calls[c].call

/-- The treatment context of a slot's call. -/
def State.contextAt (s : State) (c : Slot) : Option Context := (s.callAt c).bind Call.context

/-- A group's queue, head first (R37). -/
def State.queue (s : State) (g : Group) : List Slot := s.queues[g]

/-- The call the reference names, when the slot is occupied and the generation matches (R27). -/
def State.named (s : State) (r : CallRef) : Option Call :=
  if (s.slotRec r.slot).gen = r.gen then s.callAt r.slot else none

/-- This station's own reference for the call in a slot; present once the station has its ID (R27). -/
def State.refOf (s : State) (c : Slot) : Option CallRef :=
  s.bus.id.map fun me => ⟨me, c, (s.slotRec c).gen⟩

/-- Whether a group is defined at this station (R176). -/
def State.defines (s : State) (g : Group) : Bool := (s.groupRec g).defined

/-- The slots standing in queues, group 0 to 15, each from head to tail: the retry order (R70, R77). -/
def State.queuedSlots (s : State) : List Slot := (List.finRange 16).flatMap fun g => s.queue g

/-- STARTING or UNCONFIGURED, in which every event but RESTART is refused (R4, R30, R166). -/
def State.outOfService (s : State) : Bool :=
  match s.bus.station with
  | .starting | .unconfigured => true
  | .joining _ | .active | .busFault _ | .duplicateId => false

/-! ### The directive queue -/

/-- Free entries of the directive queue (R167). -/
def State.free (s : State) : Nat := directiveCapacity - s.port.directives.length

/-- A directive joins the tail (R167). The queue never exceeds its capacity. -/
def State.place (s : State) (d : Directive) : State :=
  if s.port.directives.length < directiveCapacity then
    s.modPort fun p => { p with directives := p.directives ++ [d] }
  else s

/-- An expiry joins the tail of the room-wait list, which holds each at most once (R169). -/
def State.await (s : State) (w : RoomWait) : State :=
  if w ∈ s.port.waits then s else s.modPort fun p => { p with waits := p.waits ++ [w] }

/-- An expiry leaves the room-wait list (R169). The events in which a head that leaves so lets the next one fit serve it
with `serveRoom` (log entry 47). -/
def State.unawait (s : State) (w : RoomWait) : State :=
  s.modPort fun p => { p with waits := p.waits.filter fun x => x ≠ w }

/-! ### Agent records -/

/-- Whether the state is ALERTING. -/
def AgentState.alertingNow : AgentState → Bool
  | .alerting .. => true
  | .loggedOut | .notReady _ | .ready _ | .claiming _ | .talking _ | .wrap .. | .wrapOver .. => false

/-- READY or CLAIMING: free for a call (1.4). -/
def AgentState.available : AgentState → Bool
  | .ready _ | .claiming _ => true
  | .loggedOut | .notReady _ | .alerting .. | .talking _ | .wrap .. | .wrapOver .. => false

/-- READY. -/
def AgentState.readyNow : AgentState → Bool
  | .ready _ => true
  | .loggedOut | .notReady _ | .claiming _ | .alerting .. | .talking _ | .wrap .. | .wrapOver .. => false

/-- The binding of an ALERTING or TALKING record (R1). -/
def AgentState.binding : AgentState → Option Binding
  | .alerting _ b _ | .talking b => some b
  | .loggedOut | .notReady _ | .ready _ | .claiming _ | .wrap .. | .wrapOver .. => none

/-- ready_since, in the states that carry it (R1). -/
def AgentState.since : AgentState → Option Nat
  | .ready t | .claiming t | .alerting t _ _ => some t
  | .loggedOut | .notReady _ | .talking _ | .wrap .. | .wrapOver .. => none

/-- A record moves to a new state: the change mark is set (R23); the deferred mark is cleared unless the
new state is READY (R25); a waiting RONA leaves the room-wait list unless the record is still ALERTING
(R169). -/
def State.enter (s : State) (p : Position) (st : AgentState) : State :=
  let moved := s.alterAgent p fun a =>
    { a with state := st, changed := true, deferred := if st.readyNow then a.deferred else false }
  if st.alertingNow then moved else moved.unawait (.rona p)

/-- Whether the agent is a member of the group (R2). -/
def Agent.memberOf (a : Agent) (g : Group) : Bool := a.members.any fun m => m.group = g

/-! ### Call records -/

/-- Open to selection: WAITING with divert pending clear (R29). -/
def Call.selectable (k : Call) : Bool := k.state = .waiting && !k.divertPending

/-- The call in a slot, when it is open to selection. -/
def State.selectable (s : State) (c : Slot) : Option Call := (s.callAt c).filter Call.selectable

/-- The groups whose members may take the call (R64). -/
def State.eligibleGroups (s : State) (k : Call) : List Group :=
  k.group :: (if k.tier = 2 then (s.groupRec k.group).overflow.toList else [])

/-- Record a new state of the call; a waiting answer-watch expiry leaves the room-wait list when the call
is no longer ALERTING-remote (R169). -/
def State.markCall (s : State) (c : Slot) (st : CallState) : State :=
  let moved := s.alterCall c fun k => { k with state := st }
  match st with
  | .alertingRemote .. => moved
  | .waiting | .offered .. | .alertingLocal _ | .connected => moved.unawait (.watch c)

/-- Set or clear a call's deferred mark (R45). -/
def State.deferCall (s : State) (c : Slot) (b : Bool) : State := s.alterSlot c fun k => { k with deferred := b }

/-- Set or clear an agent's deferred mark (R25). -/
def State.deferAgent (s : State) (p : Position) (b : Bool) : State := s.alterAgent p fun a => { a with deferred := b }

/-- A frame or reply that matches nothing is counted under stale (R148). -/
def State.countStale (s : State) : State := s.modExch fun x => { x with stale := count1 x.stale }

/-! ### Answers on the Shelf Port -/

/-- The outcome codes (R166, 11.5). -/
inductive OutcomeCode where
  | taken | refusedState | refusedRange | refusedFull | refusedStarting
deriving DecidableEq, Repr

/-- The byte of an outcome (11.5). -/
def OutcomeCode.byte : OutcomeCode → Byte
  | .taken => 0
  | .refusedState => 1
  | .refusedRange => 2
  | .refusedFull => 3
  | .refusedStarting => 4

/-- The part drives these bytes as its answer to an EVENT (R166). -/
def State.drive (s : State) (bytes : List Byte) : State := s.modPort fun p => { p with out := bytes }

/-- The part answers an EVENT with an outcome (R166). -/
def State.answer (s : State) (o : OutcomeCode) : State := s.drive [o.byte]

end Sys2Proof.Machine
end

