-- ==== Sys2Proof/Machine/Scores.lean ====
section
/-! DEFINITION. The Score Unit (Chapter 3): agent scores, handling time, wait estimates, buckets and the
figures a summary advertises. Only the AHT figures are stored; every other figure is computed from the
state at the moment it is read (R48). -/

namespace Sys2Proof.Machine

/-! ### Agent inputs -/

/-- The idle input i (R49). -/
def idleInput (now : Nat) (a : Agent) : Nat :=
  match a.state.since with
  | some t => saturate 2047 ((now - t) / 10)
  | none => 0

/-- The occupancy o in per-mille (R50): 0 while H is absent. -/
def occupancy (s : State) (a : Agent) : Nat :=
  match s.cfg with
  | none => 0
  | some c => saturate 1000 (1000 * (a.busyPrev + a.busyCur) / (c.windowHalf + s.time.windowCount))

/-- The debt input d (R51). -/
def debtInput (a : Agent) : Nat := saturate 255 (a.debtPrev + a.debtCur)

/-- The arithmetic of R52, for a proficiency, the three inputs and the group's weights. Natural
subtraction stops at 0, which the rule then raises to 1. -/
def scoreOf (prof idle occ debt wIdle wOcc : Nat) : Nat :=
  max 1 (2048 * prof + idle * wIdle / 8 + (1000 - occ) * wOcc / 16 - 16 * debt)

/-- The proficiency of a member in a group (R2). -/
def Agent.proficiency (a : Agent) (g : Group) : Option Nat :=
  (a.members.find? fun m => m.group = g).map Membership.proficiency

/-- The score of an agent in a group; 0 where none is computed (R52). -/
def scoreIn (s : State) (a : Agent) (g : Group) : Nat :=
  match a.state.available, a.proficiency g with
  | true, some prof =>
    scoreOf prof (idleInput s.now a) (occupancy s a) (debtInput a) (s.groupRec g).wIdle (s.groupRec g).wOcc
  | _, _ => 0

/-- The agent's score over a set of groups, and the group that gives it: the earliest membership entry of
those that give the highest (R53). Score 0 is no eligibility. -/
def scoreOver (s : State) (a : Agent) (gs : List Group) : Nat × Option Group :=
  a.members.foldl (fun best m =>
    if m.group ∈ gs ∧ best.1 < scoreIn s a m.group then (scoreIn s a m.group, some m.group) else best) (0, none)

/-- Whether the agent at `p`, with its score, stands ahead of the one at `q` in the order of local agents,
where `q` has the lower position (R54). -/
def ahead (s : State) (p : Position) (sp : Nat) (q : Position) (sq : Nat) : Bool :=
  sq < sp || (sq = sp &&
    match (s.agent p).state.since, (s.agent q).state.since with
    | some tp, some tq => tp < tq
    | _, _ => false)

/-- The first local agent in the order of R54 among those with a score above 0, and that score. -/
def bestAgent (s : State) (score : Position → Nat) : Option (Position × Nat) :=
  (List.finRange 48).foldl (fun best p =>
    if score p = 0 then best else
    match best with
    | none => some (p, score p)
    | some (q, sq) => if ahead s p (score p) q sq then some (p, score p) else best) none

/-! ### Handling time -/

/-- The AHT update of a wrap completion (R55). -/
def ahtAfter (aht talk wrap overS : Nat) : Nat :=
  (7 * aht + min 3600 (max 1 (talk + wrap + overS)) + 4) / 8

/-! ### Wait estimates -/

/-- Whether a record counts in the local part of the staffed count (R56). -/
def AgentState.staffed : AgentState → Bool
  | .ready _ | .claiming _ | .alerting .. | .talking _ | .wrap .. | .wrapOver .. => true
  | .loggedOut | .notReady _ => false

/-- The local part of the staffed count (R56). -/
def staffedLocal (s : State) (g : Group) : Nat :=
  (List.finRange 48).countP fun p => (s.agent p).state.staffed && (s.agent p).memberOf g

/-- A group's entry in a peer's row; a group the row does not list, and a row not present, read as zeros
(R134). -/
def peerEntry (s : State) (peer : Station) (g : Group) : Entry :=
  match s.peers.rows[peer] with
  | none => ⟨g, 0, 0, 0, 0⟩
  | some row => (row.entries.find? fun e => e.group = g).getD ⟨g, 0, 0, 0, 0⟩

/-- The peer part of the staffed count (R56). -/
def staffedPeers (s : State) (g : Group) : Nat :=
  ((List.finRange 15).map fun q => (peerEntry s q g).ready).sum

/-- The staffed count N for a home group and a tier (R56). -/
def staffed (s : State) (g : Group) (tier : Fin 3) : Nat :=
  staffedLocal s g + (if tier = 0 then 0 else staffedPeers s g)

/-- The expected wait in seconds for position k, handling time A and staffed count N (R57). -/
def ewt (k aht n : Nat) : Nat := saturate 5999 (ceilDiv (k * aht) (max 1 n))

/-- The position of a call in its home group's queue (R38). -/
def positionOf (s : State) (c : Slot) (k : Call) : Nat := (s.queue k.group).idxOf c + 1

/-- The expected wait of a call in a queue (R57). -/
def ewtOf (s : State) (c : Slot) (k : Call) : Nat :=
  ewt (positionOf s c k) s.aht[k.group] (staffed s k.group k.tier)

/-- The expected wait in minutes (R57). -/
def ewtMinutes (s : State) (c : Slot) (k : Call) : Nat := ceilDiv (ewtOf s c k) 60

/-- REPORT GROUP's "EWT for position 1" (R58). -/
def headEwt (s : State) (g : Group) : Nat :=
  match (s.queue g).head?.bind s.callAt with
  | some k => ewt 1 s.aht[g] (staffed s g k.tier)
  | none => ewt 1 s.aht[g] (staffedLocal s g)

/-- The bucket of a value against three thresholds (R59). -/
def bucket (x : Nat) (t : Nat × Nat × Nat) : Nat :=
  if x < t.1 then 1 else if x < t.2.1 then 2 else if x < t.2.2 then 3 else 4

/-- The decimal digits of a spoken value, most significant first, with no leading zeros (R60). -/
def spokenDigits (n : Nat) : List Nat :=
  if n < 10 then [n] else if n < 100 then [n / 10, n % 10] else [n / 100, n / 10 % 10, n % 10]

/-- The digits a SAY_VALUE speaks (R60). -/
def sayDigits (s : State) (c : Slot) (k : Call) : SayOf → List Nat
  | .position => spokenDigits (saturate 999 (positionOf s c k))
  | .ewtMinutes => spokenDigits (saturate 999 (ewtMinutes s c k))

/-! ### Summary quantities -/

/-- The ready count of a group (R61). -/
def readyCount (s : State) (g : Group) : Nat :=
  (List.finRange 48).countP fun p => (s.agent p).state.available && (s.agent p).memberOf g

/-- The best of a group (R61). -/
def bestOf (s : State) (g : Group) : Nat :=
  (List.finRange 48).foldl (fun m p => max m (scoreIn s (s.agent p) g)) 0

/-- Whether a call counts in its group's peer waiting count: WAITING at tier 1 or 2 (R62). -/
def Call.waitsForPeers (k : Call) : Bool := k.state = .waiting && k.tier ≠ 0

/-- The calls of a group counted in its peer waiting count (R62). -/
def peerWaitingCalls (s : State) (g : Group) : List Call :=
  ((s.queue g).filterMap s.callAt).filter Call.waitsForPeers

/-- The peer waiting count of a group (R62). -/
def peerWaiting (s : State) (g : Group) : Nat := (peerWaitingCalls s g).length

/-- The oldest age of a group (R62). -/
def oldestAge (s : State) (g : Group) : Nat :=
  (peerWaitingCalls s g).foldl (fun m k => max m (saturate 65535 ((s.now - k.arrival) / 10))) 0

end Sys2Proof.Machine
end

