-- ==== Sys2Proof/Machine/Streams.lean ====
section
/-! DEFINITION. The Clip Fetch Unit and the Highway Output (Chapter 6): stream records, the fetch arbiter,
one stream's output in one frame, and the highway slots. -/

namespace Sys2Proof.Machine

/-- A stream's record. -/
def State.stream (s : State) (n : StreamId) : Stream := s.clips.streams[n]

/-- Update one stream's record. -/
def State.alterStream (s : State) (n : StreamId) (f : Stream → Stream) : State :=
  s.modClips fun c => { c with streams := alter c.streams n f }

/-- A directory entry (R103). -/
def State.clip (s : State) (c : Nat) : Option Clip :=
  if h : c < 128 then s.conf.directory[c] else none

/-- A clip's length in samples; every clip a start request can name is present (R103). -/
def State.clipLength (s : State) (c : Nat) : Nat := ((s.clip c).map Clip.length).getD 0

/-- A clip's start address. -/
def State.clipStart (s : State) (c : Nat) : Nat := ((s.clip c).map Clip.start).getD 0

/-- The playlist of a bed stream; a voice stream has none (R79, R104). -/
def State.playlistOf (s : State) (n : StreamId) : List Nat :=
  if h : n.val < 4 then s.conf.playlists[n.val] else []

/-- The stream of a bed and of a voice (R82). -/
def bedStream (b : Bed) : StreamId := ⟨b.val, by omega⟩
def voiceStream (v : Voice) : StreamId := ⟨v.val + 4, by omega⟩

/-- The playlist entry after `i`, returning to 0 after the last (R111). -/
def nextEntry (playlist : List Nat) (i : Nat) : Nat := if i + 1 < playlist.length then i + 1 else 0

/-! ### Fetching -/

/-- Whether the stream needs a fetch (R107). -/
def Stream.needsFetch (x : Stream) : Bool :=
  match x.playing with
  | none => false
  | some p => x.fifo.length ≤ readSize && 0 < p.bytesLeft

/-- How a grant of `n` bytes moves the fetch side: a bed whose clip is wholly granted moves on to the next
playlist entry (R107, R111). DESIGN CHOICE: with clips so short that the FIFO holds several, the fetch index runs more than
one entry ahead, as the rule of the grant makes it, although R111 also says that it is at most one ahead; unsafe, log
entry 49. -/
def Playing.granted (s : State) (playlist : List Nat) (n : Nat) (p : Playing) : Playing :=
  match p.indexes with
  | some (i, j) =>
    if p.bytesLeft - n = 0 then
      let j' := nextEntry playlist j
      let c := playlist.getD j' 0
      { p with indexes := some (i, j'), nextAddr := s.clipStart c, bytesLeft := s.clipLength c }
    else { p with nextAddr := p.nextAddr + n, bytesLeft := p.bytesLeft - n }
  | none => { p with nextAddr := p.nextAddr + n, bytesLeft := p.bytesLeft - n }

/-- Grant a read to a stream (R107). -/
def grantRead (n : StreamId) (s : State) : State :=
  match (s.stream n).playing with
  | none => s
  | some p =>
    let count := min readSize p.bytesLeft
    (s.alterStream n fun x => { x with playing := x.playing.map (Playing.granted s (s.playlistOf n) count) }).modClips
      fun c => { c with inFlight := some ⟨n, (s.stream n).epoch, p.nextAddr, count⟩, lastServed := n }

/-- The streams in the arbiter's order: from last served + 1, wrapping (R107). -/
def fetchOrder (last : StreamId) : List StreamId :=
  (List.range 16).map fun k => Fin.ofNat 16 (last.val + 1 + k)

/-- The arbiter's test (R107). -/
def fetchTest (s : State) : State :=
  if s.clips.inFlight.isSome || s.bus.station = .starting then s
  else
    match (fetchOrder s.clips.lastServed).find? fun n => (s.stream n).needsFetch with
    | some n => grantRead n s
    | none => s

/-! ### Starting and stopping -/

/-- A stop request (R106): no effect on an inactive stream. -/
def stopStream (n : StreamId) (s : State) : State :=
  if (s.stream n).playing.isSome then
    s.alterStream n fun x => { x with playing := none, fifo := [], started := false, epoch := x.epoch + 1 }
  else s

/-- A start request (R105), with the arbiter's test it makes possible (R107). -/
def startStream (n : StreamId) (clip : Nat) (s : State) : State :=
  let stopped := stopStream n s
  fetchTest <| stopped.alterStream n fun x =>
    { x with
      playing := some { clip := clip, indexes := if n.val < 4 then some (0, 0) else none,
                        nextAddr := s.clipStart clip, bytesLeft := s.clipLength clip,
                        samplesLeft := s.clipLength clip }
      fifo := []
      started := false
      epoch := x.epoch + 1 }

/-- A bed's stream starts at the first clip of its playlist (R99, R105). -/
def startBed (b : Bed) (s : State) : State :=
  startStream (bedStream b) ((s.playlistOf (bedStream b)).getD 0 0) s

/-! ### A read arrives -/

/-- Whether a stream that has just taken bytes is started: at a level of 32, or with its whole clip granted
and no read of its own in flight (R109). -/
def Stream.startsNow (x : Stream) : Bool :=
  match x.playing with
  | none => false
  | some p => readSize ≤ x.fifo.length || p.bytesLeft = 0

/-- The stream takes the bytes it asked for (R108). -/
def Stream.receive (bytes : List Byte) (x : Stream) : Stream :=
  let y := { x with fifo := x.fifo ++ bytes }
  { y with started := x.started || y.startsNow }

/-- The bytes of the in-flight read arrive: kept when the stream is active in the epoch of the grant,
discarded otherwise; then the arbiter tests again (R108). Bytes with no read in flight are those of a read
a reset abandoned, and are discarded. -/
def arriveRead (bytes : List Byte) (s : State) : State :=
  match s.clips.inFlight with
  | none => s
  | some r =>
    let idle := s.modClips fun c => { c with inFlight := none }
    let x := s.stream r.stream
    fetchTest <|
      if x.playing.isSome && x.epoch = r.epoch then
        idle.alterStream r.stream (Stream.receive (bytes.take r.count))
      else idle

/-! ### The highway -/

/-- Whether the Highway Output drives slots 0..16 (R112). -/
def State.driving (s : State) : Bool := !s.outOfService && s.time.syncPresent

/-- The silence code (R112). -/
def State.silence (s : State) : Byte := s.conf.silence

/-- What the slots carry as a frame begins: the silence code in slots 0..16 while they are driven, and
nothing elsewhere. The frame's samples then replace it stream by stream (R110, R112). -/
def beginDrive (s : State) : State :=
  s.setHighway <| Vector.ofFn fun i : Fin 32 => if s.driving && i.val ≤ 16 then some s.silence else none

/-- Put a stream's sample in its slot of the present frame; the output of a slot not driven is dropped
(R110, R112). -/
def putSample (n : StreamId) (b : Byte) (s : State) : State :=
  if s.driving then s.setHighway (s.highway.set n.val (some b) (by omega)) else s

/-- The play side after a sample has left the FIFO (R110, R111): a bed goes on to its next playlist clip,
and a voice whose clip has ended is inactive. -/
def Playing.played (s : State) (playlist : List Nat) (p : Playing) : Option Playing :=
  if p.samplesLeft - 1 = 0 then
    match p.indexes with
    | some (i, j) =>
      let i' := nextEntry playlist i
      let c := playlist.getD i' 0
      some { p with clip := c, indexes := some (i', j), samplesLeft := s.clipLength c }
    | none => none
  else some { p with samplesLeft := p.samplesLeft - 1 }

/-- One active, started stream's output in a frame (R110). The flag says that a voice's clip has finished. -/
def outputSample (n : StreamId) (s : State) : State × Bool :=
  match (s.stream n).playing, (s.stream n).started, (s.stream n).fifo with
  | some _, true, [] =>
    (putSample n s.silence (s.alterStream n fun x => { x with underruns := count1 x.underruns }), false)
  | some p, true, b :: rest =>
    let next := p.played s (s.playlistOf n)
    let out := putSample n b <| s.alterStream n fun x =>
      { x with playing := next, fifo := rest, started := next.isSome }
    (if rest.length = readSize then fetchTest out else out, next.isNone)
  | _, _, _ => (s, false)

end Sys2Proof.Machine
end

