-- ==== Sys2Proof/Machine/Treatment.lean ====
section
/-! DEFINITION. The Treatment Engine (Chapter 5): voices and beds, timed and control steps, the walk, holds
and the end of a treatment. -/

namespace Sys2Proof.Machine

/-- A voice is attached to a call, or freed (R93). -/
def State.modVoice (s : State) (v : Voice) (x : Option Slot) : State :=
  s.modTreat fun t => { t with voices := alter t.voices v fun _ => x }

/-! ### Where the caller hears the treatment (R87, R99) -/

/-- The highway slot of a slot in use (R81). -/
def HeardOn.number : HeardOn → Nat
  | .nothing => 0
  | .bed b => b.val
  | .voice v => v.val + 4
  | .silence => 16

/-- A bed loses a listener, and its stream stops with the last (R99). -/
def leaveBed (h : HeardOn) (s : State) : State :=
  match h with
  | .bed b =>
    let s' := s.modTreat fun t => { t with listeners := alter t.listeners b fun n => n - 1 }
    if s.treat.listeners[b] = 1 then stopStream (bedStream b) s' else s'
  | .nothing | .voice _ | .silence => s

/-- A bed gains a listener, and its stream starts with the first (R99). -/
def joinBed (h : HeardOn) (s : State) : State :=
  match h with
  | .bed b =>
    let s' := s.modTreat fun t => { t with listeners := alter t.listeners b fun n => n + 1 }
    if s.treat.listeners[b] = 0 then startBed b s' else s'
  | .nothing | .voice _ | .silence => s

/-- Change the slot a caller hears: the beds' counts follow, and LISTEN is placed when the slot changes
(R87, R99). -/
def hearOn (c : Slot) (h : HeardOn) (s : State) : State :=
  match s.callAt c with
  | none => s
  | some k =>
    match k.context with
    | none => s
    | some x =>
      if x.heard = h then s
      else ((joinBed h (leaveBed x.heard s)).alterContext c fun x => { x with heard := h }).place (.listen k.trunk h.number)

/-! ### Voices (R93) -/

/-- The voice attached to a call. -/
def voiceOf (c : Slot) (s : State) : Option Voice :=
  (List.finRange 12).find? fun v => s.treat.voices[v] = some c

/-- The lowest-numbered free voice. -/
def freeVoice (s : State) : Option Voice := (List.finRange 12).find? fun v => s.treat.voices[v] = none

/-- A call's voice is released; its stream is stopped when it is still playing (R93). -/
def releaseVoice (c : Slot) (s : State) : State :=
  match voiceOf c s with
  | some v => stopStream (voiceStream v) (s.modVoice v none)
  | none => s

/-- The voice a SAY or SAY_VALUE plays on: the call's own, else the lowest free one (R90). Taking a free
voice moves the caller, so it also needs a directive entry for the LISTEN; a step boundary always has one
(R84), and a repeated performance without one is DESIGN CHOICE (unsafe, log entry 16). -/
def pickVoice (c : Slot) (s : State) : Option Voice :=
  match voiceOf c s with
  | some v => some v
  | none => if 0 < s.free then freeVoice s else none

/-! ### Timed steps (R88 to R92) -/

/-- The step a list holds at an index, or none beyond its last step (R85). -/
def State.stepAt (s : State) (list index : Nat) : Option TreatStep :=
  (if h : list < 32 then s.conf.lists[list] else none).bind fun l => l.steps[index]?

/-- The loop index of a list (R97). -/
def State.loopOf (s : State) (list : Nat) : Nat :=
  ((if h : list < 32 then s.conf.lists[list] else none).map TreatList.loopIndex).getD 0

/-- Set the step deadline and the pending digits of a context as a timed step starts. -/
def setStep (c : Slot) (deadline : Option Nat) (digits : Option (List Nat)) (s : State) : State :=
  s.alterContext c fun x => { x with deadline := deadline, digits := digits }

/-- A shortage substitution of nominal duration `ceil(samples / 8000)` (R92). -/
def substitute (c : Slot) (k : Call) (samples : Nat) (s : State) : State :=
  let counted := s.modTreat fun t => { t with shortages := count1 t.shortages }
  setStep c (some (s.now + 10 * ceilDiv samples 8000)) none <|
    hearOn c (.bed (s.groupRec k.group).fallback) counted

/-- Play clips on the call's voice: the first is started and the others are its pending digits; with no
voice the step is substituted (R90, R91, R92). -/
def playClips (c : Slot) (k : Call) (clips : List Nat) (digits : Option (List Nat)) (s : State) : State :=
  match pickVoice c s with
  | some v =>
    setStep c none digits <| hearOn c (.voice v) <| startStream (voiceStream v) (clips.headD 0) <| s.modVoice v (some c)
  | none => substitute c k (clips.map s.clipLength).sum s

/-- A timed step starts (R88 to R91). -/
def startTimed (c : Slot) (k : Call) (step : TreatStep) (s : State) : State :=
  match step with
  | .bed b d => setStep c (some (s.now + 10 * d)) none <| hearOn c (.bed b) <| releaseVoice c s
  | .silence d => setStep c (some (s.now + 10 * d)) none <| hearOn c .silence <| releaseVoice c s
  | .say clip => playClips c k [clip] none s
  | .sayValue of base =>
    let clips := (sayDigits s c k of).map fun d => base + d
    playClips c k clips (some clips.tail) s
  | .repeatNext _ | .branch .. | .nest _ | .endList => s

/-! ### Control steps (R94 to R97) -/

/-- The value K a BRANCH reads (R95). -/
def branchValue (s : State) (c : Slot) (k : Call) (x : Context) : BranchOn → Nat
  | .positionBucket => bucket (positionOf s c k) (s.groupRec k.group).posAt
  | .ewtBucket => bucket (ewtOf s c k) (s.groupRec k.group).ewtAt
  | .tier => k.tier.val + 1
  | .priority => k.priority.val + 1
  | .visit => saturate 255 (x.visits + 1)

/-- An END or implicit END: of a nested run, or of a pass of the top-level list (R96, R97). Answers the
context and the step due. -/
def takeEnd (s : State) (x : Context) : Context × Nat :=
  match x.back with
  | some r =>
    match r.runs with
    | some (n + 2) => ({ x with back := some { r with runs := some (n + 1) } }, 0)
    | _ => ({ x with list := r.list, back := none }, r.index)
  | none => ({ x with visits := saturate 255 (x.visits + 1) }, s.loopOf x.list)

/-- A control step standing at `due` is taken: the context after it and the next step due (R94 to R97). -/
def takeControl (s : State) (c : Slot) (k : Call) (x : Context) (due : Nat) : Option TreatStep → Context × Nat
  | some (.repeatNext n) => if n = 0 then (x, due + 2) else ({ x with repeats := some n }, due + 1)
  | some (.branch on ts) =>
    let v := branchValue s c k x on
    (x, if 1 ≤ v ∧ v ≤ ts.length then ts.getD (v - 1) 0 else due + 1)
  | some (.nest m) =>
    ({ x with list := m, back := some ⟨x.list, due + 1, x.repeats⟩, repeats := none }, 0)
  | some .endList | none => takeEnd s x
  | some (.bed ..) | some (.say _) | some (.sayValue ..) | some (.silence _) => (x, due)

/-! ### The walk (R85, R86) -/

/-- A stall: one second on the fallback bed, standing before the control step not taken (R86). -/
def stall (c : Slot) (k : Call) (due : Nat) (s : State) : State :=
  let counted := s.modTreat fun t => { t with stalls := count1 t.stalls }
  (setStep c (some (s.now + 10)) none <| hearOn c (.bed (s.groupRec k.group).fallback) <| releaseVoice c counted).alterContext c
    fun x => { x with control := 0, index := due }

/-- The walk from the step due: control steps until a timed step or a stall (R85, R86). The control run
stops it at 8, so `fuel` of 9 is never used up. -/
def walk (c : Slot) (k : Call) : (fuel due : Nat) → State → State
  | 0, due, s => stall c k due s
  | fuel + 1, due, s =>
    match s.contextAt c with
    | none => s
    | some x =>
      match s.stepAt x.list due with
      | some st =>
        if st.timed then
          startTimed c k st (s.alterContext c fun x => { x with index := due, control := 0 })
        else if 8 ≤ x.control then stall c k due s
        else
          let next := takeControl s c k x due (some st)
          walk c k fuel next.2 (s.alterContext c fun _ => { next.1 with control := x.control + 1 })
      | none =>
        if 8 ≤ x.control then stall c k due s
        else
          let next := takeControl s c k x due none
          walk c k fuel next.2 (s.alterContext c fun _ => { next.1 with control := x.control + 1 })

/-- The step a boundary's walk starts from (R85): step 0 at the start of the treatment, the control step a
stall stopped before, else the step after the timed step that ended. -/
def stepDue (s : State) (x : Context) : Nat :=
  if x.heard = .nothing then x.index
  else
    match s.stepAt x.list x.index with
    | some st => if st.timed then x.index + 1 else x.index
    | none => x.index

/-- The walk of a context from its boundary. -/
def walkOn (c : Slot) (s : State) : State :=
  match s.callAt c with
  | none => s
  | some k =>
    match k.context with
    | none => s
    | some x => walk c k 9 (stepDue s x) s

/-- A step boundary: the walk is made when a directive entry is free, else the context is held (R84). -/
def boundary (c : Slot) (s : State) : State :=
  if 0 < s.free then walkOn c s
  else (s.alterContext c fun x => { x with held := true }).modTreat fun t =>
    { t with holdList := t.holdList ++ [c] }

/-- The end of a timed step: performed again under a REPEAT with runs left, else a step boundary (R94). -/
def endStep (c : Slot) (s : State) : State :=
  match s.callAt c with
  | none => s
  | some k =>
    match k.context with
    | none => s
    | some x =>
      let quiet := s.alterContext c fun x => { x with deadline := none, digits := none }
      match x.repeats, s.stepAt x.list x.index with
      | some (n + 2), some st => startTimed c k st (quiet.alterContext c fun x => { x with repeats := some (n + 1) })
      | _, _ => boundary c (quiet.alterContext c fun x => { x with repeats := none })

/-- A step deadline: the end of a BED, SILENCE or substitution, or of a stall (R84, R86). -/
def endDeadline (c : Slot) (s : State) : State :=
  match s.contextAt c with
  | none => s
  | some x =>
    match s.stepAt x.list x.index with
    | some st =>
      if st.timed then endStep c s else boundary c (s.alterContext c fun x => { x with deadline := none })
    | none => boundary c (s.alterContext c fun x => { x with deadline := none })

/-- Clip-finished on a voice's stream: the next pending digit is started, or the step ends; ignored when no
context holds the voice (R91, R93). -/
def clipFinished (v : Voice) (s : State) : State :=
  match s.treat.voices[v] with
  | none => s
  | some c =>
    match s.contextAt c with
    | none => s
    | some x =>
      match x.digits with
      | some (d :: rest) => startStream (voiceStream v) d (s.alterContext c fun x => { x with digits := some rest })
      | some [] | none => endStep c s

/-! ### Start, resumption, end -/

/-- A treatment starts at step 0 of the home group's list (R83). -/
def startTreatment (c : Slot) (s : State) : State :=
  match s.callAt c with
  | none => s
  | some k =>
    boundary c <| s.alterCall c fun k' =>
      { k' with context := some { list := (s.groupRec k.group).treatment, index := 0, repeats := none, back := none,
                                  heard := .nothing, deadline := none, digits := none, visits := 0, control := 0, held := false } }

/-- Resume the head of the hold list (R98). -/
def resumeHead (s : State) : State :=
  match s.treat.holdList with
  | [] => s
  | c :: rest =>
    walkOn c <| (s.modTreat fun t => { t with holdList := rest }).alterContext c fun x => { x with held := false }

/-- Held treatments are resumed while an entry is free (R98); each resumption shortens the list. -/
def resumeHeld : Nat → State → State
  | 0, s => s
  | n + 1, s => if s.treat.holdList = [] ∨ s.free = 0 then s else resumeHeld n (resumeHead s)

/-- All the resumptions that room allows (R98). -/
def resumeAll (s : State) : State := resumeHeld s.treat.holdList.length s

/-- The end of a treatment (R100). -/
def endTreatment (c : Slot) (s : State) : State :=
  match s.contextAt c with
  | none => s
  | some x =>
    let off := s.modTreat fun t => { t with holdList := t.holdList.filter fun d => d ≠ c }
    (leaveBed x.heard (releaseVoice c off)).alterCall c fun k => { k with context := none }

end Sys2Proof.Machine
end

