-- ==== Sys2Proof/Machine/Calls.lean ====
section
/-! DEFINITION. The Call Table (Chapter 2): queue order, becoming CONNECTED, freeing, and the group
accumulators. Marks and their clearing stand in Distribution.lean, with the attempts they hand on. -/

namespace Sys2Proof.Machine

/-! ### Group queues (R37) -/

/-- Insert `x` immediately after the last element that `ok` holds of, or at the head (R37). -/
def insertAfterLast {α : Type} (ok : α → Bool) (x : α) : List α → List α
  | [] => [x]
  | y :: ys => if (y :: ys).any ok then y :: insertAfterLast ok x ys else x :: y :: ys

/-- Whether the entry's priority class is less than or equal to `p` (R37). -/
def State.classAtMost (s : State) (p : Fin 4) (c : Slot) : Bool :=
  match s.callAt c with
  | some k => k.priority ≤ p
  | none => false

/-- A call joins its home group's queue (R37). -/
def joinQueue (c : Slot) (s : State) : State :=
  match s.callAt c with
  | some k => s.alterQueue k.group (insertAfterLast (s.classAtMost k.priority) c)
  | none => s

/-- An entry leaves a queue, and those behind close up (R34, R36). -/
def leaveQueue (g : Group) (c : Slot) (s : State) : State := s.alterQueue g fun q => q.filter fun d => d ≠ c

/-! ### Group accumulators (R46) -/

def countOffered (g : Group) (s : State) : State := s.alterCounts g fun n => { n with offeredIn := count1 n.offeredIn }
def countAnsweredLocal (g : Group) (s : State) : State := s.alterCounts g fun n => { n with answeredLocal := count1 n.answeredLocal }
def countAnsweredByPeers (g : Group) (s : State) : State := s.alterCounts g fun n => { n with answeredByPeers := count1 n.answeredByPeers }
def countTakenFromPeers (g : Group) (s : State) : State := s.alterCounts g fun n => { n with takenFromPeers := count1 n.takenFromPeers }
def countAbandoned (g : Group) (s : State) : State := s.alterCounts g fun n => { n with abandoned := count1 n.abandoned }
def countDiverted (g : Group) (s : State) : State := s.alterCounts g fun n => { n with diverted := count1 n.diverted }
def countRonaReturn (g : Group) (s : State) : State := s.alterCounts g fun n => { n with ronaReturns := count1 n.ronaReturns }

/-! ### Trunks -/

/-- Whether the slot holds the trunk. -/
def State.holdsTrunk (s : State) (t : Trunk) (c : Slot) : Bool :=
  match s.callAt c with
  | some k => k.trunk = t
  | none => false

/-- The record that holds a trunk; R31 lets no two hold one (R27). -/
def State.byTrunk (s : State) (t : Trunk) : Option Slot := (List.finRange 64).find? (s.holdsTrunk t)

/-- The lowest-numbered free slot (R31). -/
def State.freeSlot (s : State) : Option Slot := (List.finRange 64).find? fun c => (s.callAt c).isNone

/-! ### CONNECTED and freed -/

/-- The count an answered call adds, by its mark (R34, R46). -/
def countAnswer (k : Call) (s : State) : State :=
  match k.state with
  | .alertingLocal _ => countAnsweredLocal k.group s
  | .alertingRemote .. => countAnsweredByPeers k.group s
  | .waiting | .offered .. | .connected => s

/-- A call becomes CONNECTED (R34). -/
def connect (c : Slot) (s : State) : State :=
  match s.callAt c with
  | none => s
  | some k =>
    let ended := endTreatment c (leaveQueue k.group c s)
    let marked := (ended.markCall c .connected).alterCall c fun k => { k with declined := noStations, divertPending := false }
    countAnswer k (marked.deferCall c false)

/-- A record is freed (R36). -/
def freeCall (c : Slot) (s : State) : State :=
  match s.callAt c with
  | none => s
  | some k =>
    let ended := endTreatment c (leaveQueue k.group c s)
    ((ended.alterSlot c fun r => { r with call := none, deferred := false }).unawait (.watch c)).unawait (.divert c)

/-- A due divert is taken (R44): DIVERT is placed, the call is counted and freed. -/
def takeDivert (c : Slot) (s : State) : State :=
  match s.callAt c with
  | none => s
  | some k => freeCall c (countDiverted k.group (s.place (.divert k.trunk (s.groupRec k.group).divertCode)))

/-- A divert becomes due: taken at once with a free entry, else it waits for room; the call is no longer
retried (R43, R44, R45). -/
def divertDue (c : Slot) (s : State) : State :=
  let due := s.deferCall c false
  if 0 < due.free then takeDivert c due else due.await (.divert c)

/-! ### The tier ladder (R41) -/

/-- The tier rises to `t` and the declined-by set becomes empty; the attempt is handed on elsewhere (R41). -/
def raiseTier (c : Slot) (t : Fin 3) (s : State) : State :=
  s.alterCall c fun k => { k with tier := t, declined := noStations }

end Sys2Proof.Machine
end

