-- ==== Sys2Proof/Machine/Bus.lean ====
section
/-! DEFINITION. The Bus Controller's queues, transmitter and random generator (Chapter 7), and the
Summary Builder (Chapter 8) whose summaries it carries. -/

namespace Sys2Proof.Machine

/-! ### What the station state allows (R128) -/

/-- Whether the reply queue takes entries and the station sends replies: JOINING and ACTIVE. -/
def StationState.sendsReplies : StationState → Bool
  | .joining _ | .active => true
  | .starting | .unconfigured | .busFault _ | .duplicateId => false

/-- Whether the ordinary queue takes entries and the station sends them: ACTIVE. -/
def StationState.sendsOrdinary : StationState → Bool
  | .active => true
  | .starting | .unconfigured | .joining _ | .busFault _ | .duplicateId => false

/-- Whether the station sends what is in the summary slot: JOINING, ACTIVE, and probes in BUS_FAULT. -/
def StationState.sendsSummaries : StationState → Bool
  | .joining _ | .active | .busFault _ => true
  | .starting | .unconfigured | .duplicateId => false

/-! ### The transmitter (R118) -/

/-- The queue whose head the transmitter takes next: replies, then ordinary frames, then the summary. -/
def Bus.nextLane (b : Bus) : Option Lane :=
  if !b.replies.isEmpty && b.station.sendsReplies then some .reply
  else if !b.ordinary.isEmpty && b.station.sendsOrdinary then some .ordinary
  else if b.slot.isSome && b.station.sendsSummaries then some .summary
  else none

/-- With no frame in hand, the transmitter takes one; at the take, attempts are 0 and backoff absent (R118). -/
def Bus.choose (b : Bus) : Bus :=
  match b.inHand, b.nextLane with
  | none, some l => { b with inHand := some l, attempts := 0, backoff := none }
  | _, _ => b

/-- The transmitter's choice (R118). -/
def State.choose (s : State) : State := s.modBus Bus.choose

/-- The frame at the head of a queue; a summary goes to all stations (R122). -/
def Bus.headOf (b : Bus) : Lane → Option OutFrame
  | .reply => b.replies.head?
  | .ordinary => b.ordinary.head?
  | .summary => b.slot.map fun es => ⟨15, .summary es⟩

/-- The head entry of a queue leaves it; new content beside an attempt stays in the slot (R126, R127). -/
def Bus.leave (b : Bus) : Lane → Bus
  | .reply => { b with replies := b.replies.tail }
  | .ordinary => { b with ordinary := b.ordinary.tail }
  | .summary => { b with slot := b.beside, beside := none }

/-! ### Queuing (R125) -/

/-- Whether a reply would be accepted (R125). -/
def State.replyRoom (s : State) : Nat :=
  if s.bus.station.sendsReplies then laneCapacity - s.bus.replies.length else 0

/-- Whether an ordinary frame would be accepted (R125). -/
def State.ordinaryRoom (s : State) : Nat :=
  if s.bus.station.sendsOrdinary then laneCapacity - s.bus.ordinary.length else 0

/-- A station as a destination. -/
def toDest (p : Station) : Fin 16 := ⟨p.val, by omega⟩

/-- A request to queue a reply: accepted, or refused and counted under replies lost (R125). -/
def State.reply (s : State) (p : Station) (body : Body) : State :=
  if 0 < s.replyRoom then
    (s.modBus fun b => { b with replies := b.replies ++ [⟨toDest p, body⟩] }).choose
  else s.modBus fun b => { b with repliesLost := count1 b.repliesLost }

/-- A request to queue an ordinary frame; a refused one queues nothing and counts nowhere (R125). -/
def State.queueOrdinary (s : State) (p : Station) (body : Body) : State :=
  if 0 < s.ordinaryRoom then
    (s.modBus fun b => { b with ordinary := b.ordinary ++ [⟨toDest p, body⟩] }).choose
  else s

/-- A summary is taken into the slot: beside an attempt on the line, else in place of what the slot holds
(R126). -/
def Bus.takeSummary (es : List Entry) (b : Bus) : Bus :=
  if b.inHand = some .summary ∧ b.line.isSome then { b with beside := some es }
  else { b with slot := some es }

/-! ### The random generator (R121) -/

/-- One move of the generator: the new low bit is the exclusive-or of bits 15, 13, 12 and 10 (R121). -/
def nextRandom (v : Half) : Half :=
  (v <<< 1) ||| (if (v.getLsbD 15 ^^ v.getLsbD 13 ^^ v.getLsbD 12 ^^ v.getLsbD 10) then 1#16 else 0#16)

/-- The value the generator is seeded with (R121). -/
def seedRandom (seed : Half) (me : Station) : Half :=
  if seed ^^^ BitVec.ofNat 16 me.val = 0#16 then 1#16 else seed ^^^ BitVec.ofNat 16 me.val

/-! ### Attempts (R119, R120) -/

/-- The frame the Bus Controller sends for the head of a queue: its own ID filled in as the source (R122). -/
def Bus.toSend (b : Bus) (l : Lane) : Option Frame :=
  match b.id, b.headOf l with
  | some me, some f => some ⟨me, f.dest, f.body⟩
  | _, _ => none

/-- The line has been recessive for the interframe gap and `slots` whole slots more: the backoff counts
down by them, and when none is left the attempt begins (R119, R120). -/
def Bus.attempt (slots : Nat) (b : Bus) : Bus :=
  match b.inHand, b.line with
  | some l, none =>
    if b.backoff.getD 0 ≤ slots then
      { b with backoff := none, line := b.toSend l, sentFirstByte := (b.toSend l).isSome }
    else { b with backoff := b.backoff.map fun n => n - slots }
  | _, _ => b

/-- The backoff of a collision that leaves attempts below 16 (R120). -/
def Bus.backOff (b : Bus) : Bus :=
  let v := nextRandom (b.rng.getD 0)
  { b with rng := some v, backoff := some (v.toNat % 2 ^ min b.attempts 8) }

/-! ### The Summary Builder (R142 to R146) -/

/-- The present entry of a group (R61, R62, R143). -/
def entryOf (s : State) (g : Group) : Entry := ⟨g, readyCount s g, bestOf s g, peerWaiting s g, oldestAge s g⟩

/-- Whether a summary lists the group: it is defined, and has a logged-in member or a call in its queue
(R143). -/
def listed (s : State) (g : Group) : Bool :=
  s.defines g && (!(s.queue g).isEmpty ||
    (List.finRange 48).any fun p => (s.agent p).state ≠ .loggedOut && (s.agent p).memberOf g)

/-- The summary of the present content (R143). -/
def buildSummary (s : State) : List Entry := ((List.finRange 16).filter (listed s)).map (entryOf s)

/-- A group's figures in a summary; a group it does not list counts as zeros (R144). -/
def figuresIn (es : List Entry) (g : Group) : Entry := (es.find? fun e => e.group = g).getD ⟨g, 0, 0, 0, 0⟩

/-- Whether two entries differ significantly (R144). -/
def Entry.differs (a b : Entry) : Bool :=
  a.ready ≠ b.ready || a.waiting ≠ b.waiting || a.best + 1024 ≤ b.best || b.best + 1024 ≤ a.best

/-- A significant change holds (R144). -/
def significantChange (s : State) : Bool :=
  (List.finRange 16).any fun g =>
    (figuresIn (buildSummary s) g).differs (figuresIn (s.builder.lastSent.getD []) g)

/-- The period of a cadence (R142). -/
def State.period (s : State) : Cadence → Nat
  | .brisk => s.conf.brisk
  | .easy => s.conf.easy
  | .slow => s.conf.slow

/-- The Builder builds a summary, places it in the slot and notes when (R126, R145). -/
def placeSummary (s : State) : State :=
  ((s.modBus (Bus.takeSummary (buildSummary s))).choose).modBuilder fun b => { b with lastPlacement := some s.now }

/-- The Builder works in JOINING and ACTIVE (R145). -/
def State.building (s : State) : Bool := s.bus.station.sendsReplies

/-- Whether a deadline is present and reached. -/
def reached (now : Nat) : Option Nat → Bool
  | some d => d ≤ now
  | none => false

/-- Step 1 of the ladder: the downshift (R145). -/
def downshift (s : State) : State :=
  if reached s.now s.builder.hold then
    match s.builder.cadence with
    | .brisk => s.modBuilder fun b =>
        { b with cadence := .easy, hold := some (s.now + s.conf.easyHold), period := b.lastPlacement.map fun t => t + s.conf.easy }
    | .easy => s.modBuilder fun b =>
        { b with cadence := .slow, hold := none, period := b.lastPlacement.map fun t => t + s.conf.slow }
    | .slow => s
  else s

/-- The ladder starts again at BRISK from now (R145 step 2, R146). -/
def startBrisk (s : State) : State :=
  s.modBuilder fun b =>
    { b with cadence := .brisk, hold := some (s.now + s.conf.briskHold), period := some (s.now + s.conf.brisk) }

/-- Whether the test of step 2 is due: the last placement lies at least 1 ds before now (R145). -/
def State.placedBefore (s : State) : Bool :=
  match s.builder.lastPlacement with
  | some t => t + 1 ≤ s.now
  | none => true

/-- Step 3 of the ladder: the period deadline (R145). -/
def periodStep (s : State) : State :=
  if reached s.now s.builder.period then
    (placeSummary s).modBuilder fun b => { b with period := some (s.now + s.period b.cadence) }
  else s

/-- The Summary Builder's steps at a decisecond (R145). -/
def ladder (s : State) : State :=
  if s.building then
    let d := downshift s
    if significantChange d && d.placedBefore then startBrisk (placeSummary d) else periodStep d
  else s

/-- A summary that went on the line becomes the last-sent content (R146). -/
def noteSent (body : Body) (s : State) : State :=
  match body with
  | .summary es => s.modBuilder fun b => { b with lastSent := some es }
  | .offer .. | .claim .. | .accept .. | .decline .. | .cancel _ | .answered .. | .returned .. | .nocall .. => s

/-- Entry to JOINING: the join deadline is set and the drop run cleared (R130). -/
def enterJoining (s : State) : State :=
  s.modBus fun b => { b with station := .joining (s.now + s.conf.joinInterval), dropRun := 0 }

end Sys2Proof.Machine
end

