-- ==== Sys2Proof/Machine/Peers.lean ====
section
/-! DEFINITION. The Peer View (Chapter 8): presence, ageing, the entries a SUMMARY brings, the Exchange
Engine's adjustments, and the effective oldest age. -/

namespace Sys2Proof.Machine

/-- Replace a peer's row. -/
def State.setRow (s : State) (p : Station) (row : Option PeerRow) : State :=
  s.modPeers fun v => { v with rows := alter v.rows p fun _ => row }

/-- A station joins the changed set (R139). -/
def State.peerChanged (s : State) (p : Station) : State :=
  s.modPeers fun v => { v with changed := withStation v.changed p }

/-- The absence deadline a frame heard now gives (R135). -/
def State.absenceFromNow (s : State) : Nat := s.now + 3 * s.conf.slow

/-- A valid frame from the peer refreshes its row (R135). -/
def hearPeer (p : Station) (s : State) : State :=
  match s.peers.rows[p] with
  | some row => s.setRow p (some { row with absence := s.absenceFromNow })
  | none => (s.setRow p (some ⟨s.absenceFromNow, none, []⟩)).peerChanged p

/-- A present row becomes absent (R137, R138). -/
def losePeer (s : State) (p : Station) : State :=
  if (s.peers.rows[p]).isSome then (s.setRow p none).peerChanged p else s

/-- The Peer View is cleared (R138). -/
def clearPeers (s : State) : State := (List.finRange 15).foldl losePeer s

/-- The entries a row holds from a SUMMARY: ascending groups, the last entry of a group, best 0 where the
ready count is 0 (R136). -/
def heldEntries (es : List Entry) : List Entry :=
  (List.finRange 16).filterMap fun g =>
    (es.reverse.find? fun e => e.group = g).map fun e => { e with best := if e.ready = 0 then 0 else e.best }

/-- The Peer View takes a SUMMARY (R136 steps 2 and 3). -/
def takeSummary (p : Station) (es : List Entry) (s : State) : State :=
  match s.peers.rows[p] with
  | some row => s.setRow p (some { row with receipt := some s.now, entries := heldEntries es })
  | none => s

/-- Change a peer's entry for a group; no effect where the row or the entry is absent (R141). -/
def adjustEntry (p : Station) (g : Group) (f : Entry → Entry) (s : State) : State :=
  match s.peers.rows[p] with
  | some row => s.setRow p (some { row with entries := row.entries.map fun e => if e.group = g then f e else e })
  | none => s

/-- The adjustment of an offer started to the peer under the group (R141). -/
def adjustOffer (p : Station) (g : Group) : State → State :=
  adjustEntry p g fun e => { e with ready := e.ready - 1, best := if e.ready - 1 = 0 then 0 else e.best }

/-- The adjustment of a DECLINE NO_AGENT or NOT_SERVED (R141). -/
def adjustDecline (p : Station) (g : Group) : State → State :=
  adjustEntry p g fun e => { e with ready := 0, best := 0 }

/-- The adjustment of a NOCALL (R141). -/
def adjustNocall (p : Station) (g : Group) : State → State :=
  adjustEntry p g fun e => { e with waiting := 0, age := 0 }

/-- The effective oldest age of a peer's entry, with its peer waiting count above 0 (R140). -/
def effectiveAge (s : State) (p : Station) (g : Group) : Nat :=
  let e := peerEntry s p g
  if e.waiting = 0 then 0
  else saturate 65535 (e.age + (s.now - (((s.peers.rows[p]).bind PeerRow.receipt).getD s.now)) / 10)

/-- The set of present peers (R139). -/
def presentPeers (s : State) : StationSet := Vector.ofFn fun i => (s.peers.rows[i]).isSome

end Sys2Proof.Machine
end

