-- ==== Sys2Proof/Machine/Agents.lean ====
section
/-! DEFINITION. The Agent Table (Chapter 1) and the claim table (R147): binding, claiming, wrap completion,
second-boundary credits. -/

namespace Sys2Proof.Machine

/-! ### Claim records (R147, R160) -/

/-- The claim record of a position, if it has one. -/
def State.claimOf (s : State) (p : Position) : Option Claim := s.exch.claims.find? fun r => r.position = p

/-- A claim record leaves the table (R160). -/
def removeClaim (p : Position) (s : State) : State :=
  s.modExch fun x => { x with claims := x.claims.filter fun r => r.position ≠ p }

/-! ### Binding (R13) -/

/-- Whether the record is bound to the reference. -/
def Agent.boundTo (a : Agent) (r : CallRef) : Bool :=
  match a.state.binding with
  | some b => b.ref = r
  | none => false

/-- The agent of this station bound to a call reference; R13 lets no two be. -/
def State.boundAgent (s : State) (r : CallRef) : Option Position :=
  (List.finRange 48).find? fun p => (s.agent p).boundTo r

/-- The agent of this station bound to the reference of the call in a slot. A TALKING agent keeps its binding past the
call's release (R35), so after sixteen reuses of the slot it holds the reference of the new call (R27). -/
def State.holderOf (s : State) (c : Slot) : Option Position := (s.refOf c).bind s.boundAgent

/-- The ALERTING state a bind gives an available record (R13). -/
def boundState (s : State) (p : Position) (r : CallRef) (g : Group) : AgentState :=
  .alerting ((s.agent p).state.since.getD s.now) ⟨r, g, s.bus.id = some r.home⟩ (s.now + 10 * (s.groupRec g).alertTime)

/-- Whether a bind request is applied (R13). -/
def State.bindable (s : State) (p : Position) (r : CallRef) : Bool :=
  (s.agent p).state.available && (s.boundAgent r).isNone

/-- An applied bind request (R13). -/
def bind (p : Position) (r : CallRef) (g : Group) (s : State) : State :=
  (removeClaim p s).enter p (boundState s p r g)

/-! ### Answers (R8, R14) -/

/-- An ALERTING record answers: TALKING, talk seconds 0, calls answered counts 1 (R8, R14). -/
def talk (p : Position) (b : Binding) (s : State) : State :=
  (s.enter p (.talking b)).alterAgent p fun a =>
    { a with talkS := 0, counts := { a.counts with answered := count1 a.counts.answered } }

/-! ### Wrap (R20) -/

/-- Wrap completion with the work of this wrap (R20): the two accumulators and the AHT (R55). The wrap
fields go with the state the caller then enters. -/
def completeWrap (p : Position) (w : WrapWork) (s : State) : State :=
  let t := (s.agent p).talkS
  (s.alterAgent p fun a =>
      { a with counts := { a.counts with talk := countBy a.counts.talk t, wrap := countBy a.counts.wrap (w.wrapS + w.overS) } }).setAht
    w.group (ahtAfter s.aht[w.group] t w.wrapS w.overS)

/-- The wrap work of a record in WRAP or WRAP_OVER. -/
def AgentState.work : AgentState → Option WrapWork
  | .wrap w _ | .wrapOver w _ => some w
  | .loggedOut | .notReady _ | .ready _ | .claiming _ | .alerting .. | .talking _ => none

/-- Whatever a record is doing that ends without a call: any wrap is completed, any claim record removed
(R7, R12, R20). -/
def windUp (p : Position) (s : State) : State :=
  match (s.agent p).state with
  | .wrap w _ | .wrapOver w _ => completeWrap p w s
  | .claiming _ => removeClaim p s
  | .loggedOut | .notReady _ | .ready _ | .alerting .. | .talking _ => s

/-! ### Second and window-half boundaries (R21, R22) -/

/-- The credit of one second, by the state the boundary finds (R21). -/
def Agent.credit (a : Agent) : Agent :=
  match a.state with
  | .talking _ => { a with talkS := count1 a.talkS, busyCur := a.busyCur + 1 }
  | .wrap w e => { a with state := .wrap { w with wrapS := count1 w.wrapS } e, busyCur := a.busyCur + 1 }
  | .wrapOver w t =>
    { a with
      state := .wrapOver { w with overS := count1 w.overS } t
      debtCur := a.debtCur + 1
      busyCur := a.busyCur + 1
      counts := { a.counts with overrun := count1 a.counts.overrun } }
  | .loggedOut | .notReady _ | .ready _ | .claiming _ | .alerting .. => a

/-- The roll of a window-half boundary (R22). -/
def Agent.roll (a : Agent) : Agent :=
  { a with busyPrev := a.busyCur, busyCur := 0, debtPrev := a.debtCur, debtCur := 0 }

/-- A second boundary taken as one event: the credits, the window-half count, and at H the roll (R21, R22,
R113). -/
def secondEvent (s : State) : State :=
  let credited := { s with agents := alterAll s.agents Agent.credit }
  if s.time.windowCount + 1 = s.conf.windowHalf then
    { credited with agents := alterAll credited.agents Agent.roll, time := { credited.time with windowCount := 0 } }
  else credited.modTime fun t => { t with windowCount := t.windowCount + 1 }

end Sys2Proof.Machine
end

