-- ==== Sys2Proof/Machine/Distribution.lean ====
section
/-! DEFINITION. The Distribution Engine (Chapter 4), with the starts of offers and claims it hands the
Exchange Engine (R149, R160) and the clearing of marks that hands attempts on to it (R40). -/

namespace Sys2Proof.Machine

/-! ### Starting an offer and a claim -/

/-- An offer is started: the call is marked OFFERED with its offer group, the OFFER is queued and the Peer
View adjusted (R149, R39). -/
def startOffer (c : Slot) (k : Call) (p : Station) (g : Group) (s : State) : State :=
  match s.refOf c with
  | none => s
  | some r =>
    let marked := (s.markCall c (.offered p (s.now + s.conf.offerTimeout) g)).deferCall c false
    adjustOffer p g <| marked.queueOrdinary p <|
      .offer r g k.priority.val k.tier k.tag (saturate 65535 ((s.now - k.arrival) / 10))

/-- A claim is started: a claim record, the agent CLAIMING, the CLAIM queued (R160, R17). -/
def startClaim (p : Position) (h : Station) (g : Group) (score : Nat) (s : State) : State :=
  match s.bus.id, (s.agent p).state with
  | some me, .ready t =>
    let added := s.modExch fun x => { x with claims := x.claims ++ [⟨p, h, g, s.now + s.conf.claimTimeout⟩] }
    (added.enter p (.claiming t)).queueOrdinary h (.claim g me p score)
  | _, _ => s

/-! ### Deferral (R75) -/

/-- A call-side attempt is deferred (R75). -/
def deferCallAttempt (c : Slot) (s : State) : State := (s.deferCall c true).setDeferrals (count1 s.deferrals)

/-- An agent-side attempt is deferred (R75). -/
def deferAgentAttempt (p : Position) (s : State) : State := (s.deferAgent p true).setDeferrals (count1 s.deferrals)

/-! ### Local binding (R68) -/

/-- A call and an agent are bound together: both tables' halves or neither, then ROUTE and ALERT (R68). A
refused request changes nothing (R13, R39). A call-side attempt names no agent that is refused (`bestLocal`); of an
agent-side one a refusal is the end, since its agent counts as not free (DEDUCED, log entry 17). -/
def bindLocal (c : Slot) (k : Call) (p : Position) (s : State) : State :=
  match s.refOf c with
  | none => s
  | some r =>
    if s.bindable p r then
      let bound := ((bind p r k.group s).markCall c (.alertingLocal p)).deferCall c false
      (bound.place (.route k.trunk r.home p)).place (.alert p r.home k.tag)
    else s

/-! ### Call-side attempts (R66, R67) -/

/-- Among the entries of a peer for the eligible groups with a ready count above 0, the highest best, and
the group that gives it, the home group on a tie (R64). -/
def peerCandidate (s : State) (p : Station) (gs : List Group) : Option (Nat × Group) :=
  gs.foldl (fun m g =>
    let e := peerEntry s p g
    if e.ready = 0 then m else
    match m with
    | none => some (e.best, g)
    | some (b, _) => if b < e.best then some (e.best, g) else m) none

/-- The peer whose candidate is V, and its candidate: the highest, then the lower station ID; no peer is
eligible outside ACTIVE or at tier 0 (R64, R65, R67). -/
def bestPeer (s : State) (k : Call) : Option (Station × Nat × Group) :=
  if s.bus.station = .active ∧ k.tier ≠ 0 then
    (List.finRange 15).foldl (fun m p =>
      if k.declined[p] then m else
      match peerCandidate s p (s.eligibleGroups k) with
      | none => m
      | some (v, g) =>
        match m with
        | none => some (p, v, g)
        | some (_, w, _) => if w < v then some (p, v, g) else m) none
  else none

/-- The agent that gives L, with L (R67). An agent whose bind request would be refused counts as not free (R13, R39).
The eligible ones are READY or CLAIMING, so the one ground left is a record bound to the call's reference, and it refuses
each of them: no agent is free for such a call. -/
def bestLocal (s : State) (c : Slot) (k : Call) : Option (Position × Nat) :=
  if (s.holderOf c).isSome then none
  else bestAgent s fun p => (scoreOver s (s.agent p) (s.eligibleGroups k)).1

/-- The three outcomes of a call-side attempt (R67). -/
inductive CallDecision where
  | offer (peer : Station) (group : Group)
  | bind (position : Position)
  | nothing
deriving DecidableEq, Repr

/-- The decision of a call-side attempt (R67). -/
def decideCall (s : State) (c : Slot) (k : Call) : CallDecision :=
  let l := bestLocal s c k
  let lScore := (l.map Prod.snd).getD 0
  let local' := match l with
    | some (a, _) => CallDecision.bind a
    | none => .nothing
  match bestPeer s k with
  | some (p, v, g) => if lScore + s.conf.margin < v then .offer p g else local'
  | none => local'

/-- A call-side attempt (R66, R67, R75). -/
def attemptCall (c : Slot) (s : State) : State :=
  match s.selectable c with
  | none => s
  | some k =>
    if s.free < attemptRoom then deferCallAttempt c s
    else
      match decideCall s c k with
      | .offer p g =>
        if s.ordinaryRoom = 0 then deferCallAttempt c s else startOffer c k p g (s.deferCall c false)
      | .bind a => bindLocal c k a (s.deferCall c false)
      | .nothing => s.deferCall c false

/-! ### Agent-side attempts (R71 to R74) -/

/-- Whether a call is eligible for the agent (R72). -/
def eligibleFor (s : State) (a : Agent) (k : Call) : Bool := (s.eligibleGroups k).any a.memberOf

/-- The call an agent-side attempt chooses: lowest class, earliest arrival, lower group, earlier place (R72). -/
def pickCall (s : State) (a : Agent) : Option (Slot × Call) :=
  s.queuedSlots.foldl (fun m c =>
    match s.selectable c with
    | none => m
    | some k =>
      if eligibleFor s a k then
        match m with
        | none => some (c, k)
        | some (_, j) =>
          if k.priority < j.priority ∨ (k.priority = j.priority ∧ k.arrival < j.arrival) then some (c, k) else m
      else m) none

/-- The peer and group a claim names: the greatest effective oldest age among entries with callers waiting,
then the lower station ID, then the earlier membership (R73). -/
def pickClaim (s : State) (a : Agent) : Option (Station × Group) :=
  (((List.finRange 15).flatMap fun p => a.members.map fun m => (p, m.group)).foldl (fun best e =>
    if (peerEntry s e.1 e.2).waiting = 0 then best else
    match best with
    | none => some (e, effectiveAge s e.1 e.2)
    | some (_, age) => if age < effectiveAge s e.1 e.2 then some (e, effectiveAge s e.1 e.2) else best)
    (none : Option ((Station × Group) × Nat))).map Prod.fst

/-- The claim part of a full attempt (R73, R74). -/
def claimPart (p : Position) (s : State) : State :=
  if s.bus.station = .active ∧ s.exch.claims.length < claimCapacity then
    match pickClaim s (s.agent p) with
    | none => s.deferAgent p false
    | some (h, g) =>
      if s.ordinaryRoom = 0 then deferAgentAttempt p s
      else startClaim p h g (scoreIn s (s.agent p) g) (s.deferAgent p false)
  else s.deferAgent p false

/-- An agent-side attempt, full or local-only (R71, R72, R73). -/
def attemptAgent (full : Bool) (p : Position) (s : State) : State :=
  if (s.agent p).state.readyNow then
    if s.free < attemptRoom then deferAgentAttempt p s
    else
      match pickCall s (s.agent p) with
      | some (c, k) => bindLocal c k p (s.deferAgent p false)
      | none => if full then claimPart p s else s.deferAgent p false
  else s

/-! ### Passes (R70, R77, R78) -/

/-- Whether any deferred mark is set (R76). -/
def State.anyDeferred (s : State) : Bool :=
  (List.finRange 64).any (fun c => (s.slotRec c).deferred) || (List.finRange 48).any fun p => (s.agent p).deferred

/-- Serve a deferred call, if its mark is still set when it is reached (R77). -/
def serveCall (s : State) (c : Slot) : State := if (s.slotRec c).deferred then attemptCall c s else s

/-- Serve a deferred agent, if its mark is still set when it is reached (R77). -/
def serveAgent (s : State) (p : Position) : State := if (s.agent p).deferred then attemptAgent true p s else s

/-- A retry pass: the deferred calls in queue order, then the deferred agents (R77). -/
def retryPass (s : State) : State := (List.finRange 48).foldl serveAgent (s.queuedSlots.foldl serveCall s)

/-- A retry pass is made when 8 or more entries are free and a deferred mark is set (R76). -/
def retryIfRoom (s : State) : State := if attemptRoom ≤ s.free && s.anyDeferred then retryPass s else s

/-- A call at tier 1 or 2 gets an attempt on entering ACTIVE (R78). -/
def activeCall (s : State) (c : Slot) : State :=
  match s.callAt c with
  | some k => if k.tier = 0 then s else attemptCall c s
  | none => s

/-- The pass of entering ACTIVE (R78). Each attempt made clears its subject's mark (R66, R71). -/
def activePass (s : State) : State :=
  (List.finRange 48).foldl (fun s p => attemptAgent true p s) (s.queuedSlots.foldl activeCall s)

/-- A call that a raised summary of the peer concerns gets an attempt (R70). -/
def raisedCall (p : Station) (raised : List Group) (s : State) (c : Slot) : State :=
  match s.callAt c with
  | some k =>
    if k.tier ≠ 0 ∧ k.declined[p] = false ∧ (s.eligibleGroups k).any (fun g => g ∈ raised) then attemptCall c s else s
  | none => s

/-- The attempts of a SUMMARY, from the bests before it (R70). -/
def raisedPass (p : Station) (before : List Nat) (s : State) : State :=
  let raised := (List.finRange 16).filter fun g => before.getD g.val 0 < (peerEntry s p g).best
  if s.bus.station = .active ∧ raised ≠ [] then s.queuedSlots.foldl (raisedCall p raised) s else s

/-! ### Clearing a mark (R40) -/

/-- A clear request that has been applied (R40): `named` joins the declined-by set, the call is WAITING in
its place, `rona` counts under RONA returns, the requesting rule places its own directives and frames, and
the divert is due or an attempt is handed on. -/
def clearMark (c : Slot) (named : Option Station) (rona : Bool) (placing : State → State) (s : State) : State :=
  match s.callAt c with
  | none => s
  | some k =>
    let added := s.alterCall c fun k =>
      { k with declined := match named with
          | some p => if s.bus.id = some p then k.declined else withStation k.declined p
          | none => k.declined }
    let cleared := added.markCall c .waiting
    let placed := placing (if rona then countRonaReturn k.group cleared else cleared)
    if k.divertPending then divertDue c placed else attemptCall c placed

/-! ### Releasing an alert (R15, R16) -/

/-- The directive entries the release of a binding needs (R7, R16). -/
def releaseNeed (b : Binding) : Nat := if b.isLocal then 2 else 1

/-- The call that a local binding names, while it is ALERTING-local at the position (R27, R40). -/
def State.alertedCall (s : State) (p : Position) (b : Binding) : Option Call :=
  (s.named b.ref).filter fun k => k.state = .alertingLocal p

/-- An alert ends as a RONA does, with `reason` stored (R7, R16, R155). -/
def releaseAlert (p : Position) (b : Binding) (reason : Nat) (s : State) : State :=
  let left := (s.enter p (.notReady reason)).alterAgent p fun a =>
    { a with counts := { a.counts with rona := count1 a.counts.rona } }
  let told := left.place (.withdraw p)
  if b.isLocal then
    match told.alertedCall p b with
    | some k => clearMark b.ref.slot none true (fun t => t.place (.unroute k.trunk)) told
    | none => told
  else told.reply b.ref.home (.returned b.ref p)

/-- RONA is taken (R16): reason 15. -/
def takeRona (p : Position) (s : State) : State :=
  match (s.agent p).state with
  | .alerting _ b _ => releaseAlert p b 15 s
  | .loggedOut | .notReady _ | .ready _ | .claiming _ | .talking _ | .wrap .. | .wrapOver .. => s

/-- An unbind of the record ALERTING on the reference (R15): WITHDRAW, READY with ready_since unchanged, and
a local-only attempt. -/
def unbind (p : Position) (s : State) : State :=
  match (s.agent p).state with
  | .alerting t _ _ => attemptAgent false p ((s.place (.withdraw p)).enter p (.ready t))
  | .loggedOut | .notReady _ | .ready _ | .claiming _ | .talking _ | .wrap .. | .wrapOver .. => s

/-- A claim ends unsuccessfully: the record leaves the table and the agent is READY with ready_since
unchanged (R17). -/
def endClaim (p : Position) (s : State) : State :=
  match (s.agent p).state with
  | .claiming t => (removeClaim p s).enter p (.ready t)
  | .loggedOut | .notReady _ | .ready _ | .alerting .. | .talking _ | .wrap .. | .wrapOver .. => removeClaim p s

/-! ### The answer watch (R158) -/

/-- An answer-watch expiry is taken (R158). -/
def takeWatch (c : Slot) (s : State) : State :=
  match s.callAt c, s.refOf c with
  | some k, some r =>
    match k.state with
    | .alertingRemote p _ _ => clearMark c (some p) false (fun t => (t.place (.unroute k.trunk)).reply p (.cancel r)) s
    | .waiting | .offered .. | .alertingLocal _ | .connected => s
  | _, _ => s

/-! ### Room returning (R169) -/

/-- The entries a waiter needs (R169). -/
def waitNeed (s : State) : RoomWait → Nat
  | .rona p => match (s.agent p).state.binding with
    | some b => releaseNeed b
    | none => 0
  | .watch _ | .divert _ => 1

/-- A waiter's expiry is taken by its own rule (R169). -/
def takeWaiter : RoomWait → State → State
  | .rona p, s => takeRona p s
  | .watch c, s => takeWatch c s
  | .divert c, s => takeDivert c s

/-- The room waiters are served from the head while the head's need fits (R169 step 1). Each service places
a directive, so `fuel` of one more than the capacity is never used up. -/
def serveWaiters : (fuel : Nat) → State → State
  | 0, s => s
  | n + 1, s =>
    match s.port.waits with
    | [] => s
    | w :: _ => if waitNeed s w ≤ s.free then serveWaiters n (takeWaiter w (s.unawait w)) else s

/-- The head of the room-wait list is served as soon as its need fits (R169): at a removal, and when the head before it has
left untaken in the event (which events those are is DEDUCED, safe, log entry 47). -/
def serveRoom (s : State) : State := serveWaiters (directiveCapacity + 1) s

/-- The removal of the head directive, and what the freed entry hands out (R169). -/
def removeHead (s : State) : State :=
  resumeAll <| retryIfRoom <| serveRoom <|
    s.modPort fun p => { p with directives := p.directives.tail }

end Sys2Proof.Machine
end

