-- ==== Sys2Proof/WellFormed.lean ====
section
/-! DEFINITION. Which commands can be spelled on the block's interfaces: each numeric operand fits the
field that carries it (the layouts of 11.5), and the command is the row its bytes belong to (a REPORT AGENT
above position 47 is a row of its own). The meanings take any operand; one too wide for its field is judged
like one outside its range. -/

namespace Sys2Proof

/-- The operand fits one byte of a transaction or a frame (11.5). -/
def fitsByte (n : Nat) : Bool := n < 256

/-- The operand fits the four bits of a station or generation field (11.5). -/
def fitsNibble (n : Nat) : Bool := n < 16

/-- The operand fits the two bytes of a score, best or age (11.5). -/
def fitsHalf (n : Nat) : Bool := n < 65536

/-- A frame's source and destination are four bits each (11.5). -/
def Header.fits (h : Header) : Bool := fitsNibble h.source && fitsNibble h.dest

/-- A call reference is four bits of home, four of generation and a slot byte (11.5). -/
def RawRef.fits (r : RawRef) : Bool := fitsNibble r.home && fitsByte r.slot && fitsNibble r.gen

/-- A SUMMARY entry is seven bytes (R122). -/
def RawEntry.fits (e : RawEntry) : Bool :=
  fitsByte e.group && fitsByte e.ready && fitsHalf e.best && fitsByte e.waiting && fitsHalf e.age

/-- The command can be spelled on its interface. -/
def wellFormed : Instr → Bool
  | .powerOn _ | .restart _ | .loadReadArrives _ => true
  | .trunkSeize _ g p _ => fitsByte g && fitsByte p
  | .trunkAnswered _ | .trunkRelease _ => true
  | .agentLogin p ms =>
    fitsByte p && ms.value.length < 256 && ms.value.all fun m => fitsByte m.1 && fitsByte m.2
  | .agentLogout p | .agentReady p | .agentAnswer p | .agentClear p | .wrapDone p | .wrapExtend p => fitsByte p.value
  | .agentNotReady p r => fitsByte p && fitsByte r.value
  | .unknownEventKind k => fitsByte k.value && !(1 ≤ k.value && k.value ≤ 12)
  | .take _ | .attention _ | .changes _ => true
  | .reportAgent p f _ => p < 48 && fitsByte f
  | .reportGroup g f _ => g < 16 && fitsByte f
  | .reportStation f _ => fitsByte f
  | .reportUnknownKind k s f _ =>
    fitsByte k && fitsByte s && fitsByte f && !(k = 1 && s < 48) && !(k = 2 && s < 16) && k ≠ 3
  | .unknownCommand c _ => fitsByte c && !(1 ≤ c && c ≤ 5)
  | .transactionAbort | .highwayFrame | .fallbackFrame | .decisecond | .secondBoundary => true
  | .windowHalfBoundary | .syncLost | .syncReturns | .streamFrameOutput _ | .readArrives _ => true
  | .alertDeadline _ | .rona _ | .wrapExpiry _ | .graceDeadline _ | .tierDeadline _ _ => true
  | .maxWaitDeadline _ | .divert _ | .retryPass | .stepDeadline _ | .treatmentResume => true
  | .busAttempt _ | .frameSent | .collision => true
  | .frameCheckError bs => bs ≠ []
  | .summary h es => h.fits && es.length < 256 && es.all RawEntry.fits
  | .offer h r g p t _ a => h.fits && r.fits && fitsByte g && fitsByte p && fitsByte t && fitsHalf a
  | .claim h g st p sc => h.fits && fitsByte g && fitsByte st && fitsByte p && fitsHalf sc
  | .accept h r p sc => h.fits && r.fits && fitsByte p && fitsHalf sc
  | .decline h r k => h.fits && r.fits && fitsByte k
  | .cancel h r => h.fits && r.fits
  | .answered h r p | .returned h r p => h.fits && r.fits && fitsByte p
  | .nocall h g p => h.fits && fitsByte g && fitsByte p
  | .offerDeadline _ | .answerWatchExpiry _ | .claimDeadline _ | .joinDeadline | .probeDeadline => true
  | .absenceDeadline _ | .holdDeadline | .periodDeadline | .attentionPulseEnd => true

end Sys2Proof
end

