-- ==== Sys2Proof/Machine/Operands.lean ====
section
/-! DEFINITION. Operands as the interfaces carry them, brought into range: the fields of received frames
(test 7 of R123), the byte layouts of frames (11.5), and the membership list of AGENT_LOGIN (R5). -/

namespace Sys2Proof.Machine

/-- A number as an index, when it is in range. -/
def inRange (n k : Nat) : Option (Fin n) := if h : k < n then some ⟨k, h⟩ else none

/-- A number, when it is at most `m`. -/
def atMost (m k : Nat) : Option Nat := if k ≤ m then some k else none

/-- A call reference in range (R122). -/
def refIn (r : RawRef) : Option CallRef := do
  return ⟨← inRange 15 r.home, ← inRange 64 r.slot, ← inRange 16 r.gen⟩

/-- A SUMMARY entry in range (R122). -/
def entryIn (e : RawEntry) : Option Entry := do
  return ⟨← inRange 16 e.group, ← atMost 48 e.ready, ← atMost 35495 e.best, ← atMost 64 e.waiting, ← atMost 65535 e.age⟩

/-- The entries of a SUMMARY in range (R122). -/
def entriesIn : List RawEntry → Option (List Entry)
  | [] => some []
  | e :: es => do
    return (← entryIn e) :: (← entriesIn es)

/-- The reason of a DECLINE (11.5). -/
def reasonIn : Nat → Option DeclineReason
  | 1 => some .noAgent
  | 2 => some .notServed
  | 3 => some .noRoom
  | _ => none

/-- The payloads, field by field (R122); a field out of range, or a SUMMARY of more than 16 entries, is none
(tests 6 and 7 of R123). -/
def summaryIn (es : List RawEntry) : Option Body :=
  if es.length ≤ 16 then (entriesIn es).map .summary else none
def offerIn (r : RawRef) (g p t : Nat) (tag : Half) (age : Nat) : Option Body := do
  return .offer (← refIn r) (← inRange 16 g) (← atMost 255 p) (← inRange 3 t) tag (← atMost 65535 age)
def claimIn (g st p score : Nat) : Option Body := do
  return .claim (← inRange 16 g) (← inRange 15 st) (← inRange 48 p) (← atMost 35495 score)
def acceptIn (r : RawRef) (p score : Nat) : Option Body := do
  return .accept (← refIn r) (← inRange 48 p) (← atMost 35495 score)
def declineIn (r : RawRef) (k : Nat) : Option Body := do
  return .decline (← refIn r) (← reasonIn k)
def cancelIn (r : RawRef) : Option Body := do
  return .cancel (← refIn r)
def answeredIn (r : RawRef) (p : Nat) : Option Body := do
  return .answered (← refIn r) (← inRange 48 p)
def returnedIn (r : RawRef) (p : Nat) : Option Body := do
  return .returned (← refIn r) (← inRange 48 p)
def nocallIn (g p : Nat) : Option Body := do
  return .nocall (← inRange 16 g) (← inRange 48 p)

/-- A frame in range: a source of 15 is out of range (test 7 of R123). -/
def frameIn (h : Header) (body : Option Body) : Option Frame := do
  return ⟨← inRange 15 h.source, ← inRange 16 h.dest, ← body⟩

/-! ### Byte layouts of frames (11.5) -/

/-- The SYNC byte (11.5). -/
def syncByte : Byte := 0x5D

/-- The KIND byte (11.5). -/
def Body.kind : Body → Nat
  | .summary _ => 1
  | .offer .. => 2
  | .claim .. => 3
  | .accept .. => 4
  | .decline .. => 5
  | .cancel _ => 6
  | .answered .. => 7
  | .returned .. => 8
  | .nocall .. => 9

/-- A call reference on the line: home and generation in one byte, then the slot (11.5). -/
def refBytes (r : CallRef) : List Byte := [lowByte (16 * r.home.val + r.gen.val), lowByte r.slot.val]

/-- A SUMMARY entry on the line (R122, 11.5). -/
def entryBytes (e : Entry) : List Byte :=
  [lowByte e.group.val, lowByte e.ready] ++ twoBytes e.best ++ [lowByte e.waiting] ++ twoBytes e.age

/-- The code of a DECLINE reason (11.5). -/
def DeclineReason.code : DeclineReason → Nat
  | .noAgent => 1
  | .notServed => 2
  | .noRoom => 3

/-- The payload of a frame (11.5). -/
def Body.payload : Body → List Byte
  | .summary es => lowByte es.length :: es.flatMap entryBytes
  | .offer r g p t tag age =>
    refBytes r ++ [lowByte g.val, lowByte p, lowByte t.val] ++ twoBytes tag.toNat ++ twoBytes age
  | .claim g st p sc => [lowByte g.val, lowByte st.val, lowByte p.val] ++ twoBytes sc
  | .accept r p sc => refBytes r ++ [lowByte p.val] ++ twoBytes sc
  | .decline r k => refBytes r ++ [lowByte k.code]
  | .cancel r => refBytes r
  | .answered r p | .returned r p => refBytes r ++ [lowByte p.val]
  | .nocall g p => [lowByte g.val, lowByte p.val]

/-- The exclusive-or of a run of bytes (R122). -/
def xorAll (bs : List Byte) : Byte := bs.foldl (fun a b => a ^^^ b) 0

/-- A frame as it stands on the line (R122, 11.5). -/
def Frame.bytes (f : Frame) : List Byte :=
  let covered := [lowByte f.body.kind, lowByte (16 * f.source.val + f.dest.val), lowByte f.body.payload.length] ++ f.body.payload
  syncByte :: covered ++ [xorAll covered]

/-- A call reference read from its two bytes (11.5). -/
def rawRef (a b : Byte) : RawRef := ⟨a.toNat / 16, b.toNat, a.toNat % 16⟩

/-- The entries read from the bytes of a SUMMARY payload; none when they are no whole number of entries. -/
def rawEntries : List Byte → Option (List RawEntry)
  | [] => some []
  | g :: r :: b1 :: b0 :: w :: a1 :: a0 :: rest =>
    (rawEntries rest).map fun es => ⟨g.toNat, r.toNat, halfOf b1 b0, w.toNat, halfOf a1 a0⟩ :: es
  | _ => none

/-- The payload read by its kind: none when the kind is none of the nine, the length is not the kind's, or a
field is out of range (tests 5, 6 and 7 of R123). -/
def bodyIn : Nat → List Byte → Option Body
  | 1, n :: rest => (rawEntries rest).bind fun es => if es.length = n.toNat then summaryIn es else none
  | 2, [a, b, g, p, t, t1, t0, a1, a0] =>
    offerIn (rawRef a b) g.toNat p.toNat t.toNat (BitVec.ofNat 16 (halfOf t1 t0)) (halfOf a1 a0)
  | 3, [g, st, p, s1, s0] => claimIn g.toNat st.toNat p.toNat (halfOf s1 s0)
  | 4, [a, b, p, s1, s0] => acceptIn (rawRef a b) p.toNat (halfOf s1 s0)
  | 5, [a, b, k] => declineIn (rawRef a b) k.toNat
  | 6, [a, b] => cancelIn (rawRef a b)
  | 7, [a, b, p] => answeredIn (rawRef a b) p.toNat
  | 8, [a, b, p] => returnedIn (rawRef a b) p.toNat
  | 9, [g, p] => nocallIn g.toNat p.toNat
  | _, _ => none

/-- The receive tests of R123 over the bytes of one frame: the frame, when it passes every test. Bytes that
arrive after the frame has ended are not taken. -/
def receiveBytes : List Byte → Option Frame
  | sync :: kind :: ends :: len :: rest =>
    let n := len.toNat
    let payload := rest.take n
    if sync = syncByte ∧ n ≤ 120 ∧ n + 1 ≤ rest.length ∧ rest.getD n 0 = xorAll ([kind, ends, len] ++ payload) then
      frameIn ⟨ends.toNat / 16, ends.toNat % 16⟩ (bodyIn kind.toNat payload)
    else none
  | _ => none

/-! ### The membership list (R5) -/

/-- One entry in range: a group defined at this station and a proficiency 1..15 (R5). -/
def memberIn (s : State) (m : Nat × Nat) : Option Membership := do
  let g ← inRange 16 m.1
  if s.defines g ∧ 1 ≤ m.2 ∧ m.2 ≤ 15 then some ⟨g, m.2⟩ else none

/-- The membership list in range: 1..4 entries in range, no group twice (R5). -/
def membersIn (s : State) (ms : List (Nat × Nat)) : Option (List Membership) :=
  match ms.mapM (memberIn s) with
  | some list => if 1 ≤ ms.length ∧ ms.length ≤ 4 ∧ (list.map Membership.group).Nodup then some list else none
  | none => none

end Sys2Proof.Machine
end

