-- ==== Sys2Proof/Machine/Exchange.lean ====
section
/-! DEFINITION. The Exchange Engine's taking of frames (Chapter 9), the receive steps of the Bus Controller
(R124) and entry to isolation (R131). -/

namespace Sys2Proof.Machine

/-! ### Isolation (R131, R132, R138) -/

/-- How many queued frames an isolation abandons (R131 step 3). -/
def Bus.queued (b : Bus) : Nat := b.replies.length + b.ordinary.length + (if b.slot.isSome then 1 else 0)

/-- The Bus Controller's part of an isolation: the frame in hand and every queue are abandoned and counted
under dropped (R131). -/
def Bus.isolate (st : StationState) (b : Bus) : Bus :=
  { b with
    station := st, inHand := none, attempts := 0, backoff := none, line := none
    replies := [], ordinary := [], slot := none, beside := none
    dropped := countBy b.dropped b.queued }

/-- The station enters ISOLATED: the Bus Controller's part, the shown cause, the Builder's deadlines absent, and
with cause BUS_FAULT the Peer View cleared (R131, R132, R138, R146). -/
def enterIsolated (cause : IsolationCause) (s : State) : State :=
  let st : StationState := match cause with
    | .busFault => .busFault (s.now + s.conf.slow)
    | .duplicateId => .duplicateId
  let out := ((s.modBus (Bus.isolate st)).modPort fun p => { p with isolated := some cause }).modBuilder
    fun b => { b with period := none, hold := none }
  match cause with
  | .busFault => clearPeers out
  | .duplicateId => out

/-- An isolation that abandons ordinary frames makes one retry pass at its end, however many they are (R76, R127;
DESIGN CHOICE, unsafe, log entry 13). -/
def isolate (cause : IsolationCause) (s : State) : State :=
  if s.bus.ordinary.isEmpty then enterIsolated cause s else retryIfRoom (enterIsolated cause s)

/-! ### Frames at the home station (9.2, 9.4) -/

/-- ACCEPT (R150). -/
def takeAccept (p : Station) (r : CallRef) (pos : Position) (s : State) : State :=
  let stale := (s.countStale).reply p (.cancel r)
  match s.named r with
  | none => stale
  | some k =>
    match k.state with
    | .offered q _ _ =>
      if q ≠ p then stale
      else if s.free = 0 then s.reply p (.cancel r)
      else
        ((s.markCall r.slot (.alertingRemote p pos (s.now + 10 * ((s.groupRec k.group).alertTime + 2)))).deferCall r.slot false).place
          (.route k.trunk p pos)
    | .alertingRemote q _ _ => if q = p then s.countStale else stale
    | .waiting | .alertingLocal _ | .connected => stale

/-- DECLINE (R151). -/
def takeDecline (p : Station) (r : CallRef) (why : DeclineReason) (s : State) : State :=
  match s.named r with
  | none => s.countStale
  | some k =>
    match k.state with
    | .offered q _ g =>
      if q ≠ p then s.countStale
      else
        clearMark r.slot (some p) false id <|
          match why with
          | .noAgent | .notServed => adjustDecline p g s
          | .noRoom => s
    | .waiting | .alertingLocal _ | .alertingRemote .. | .connected => s.countStale

/-- ANSWERED (R156). -/
def takeAnswered (p : Station) (r : CallRef) (pos : Position) (s : State) : State :=
  match s.named r with
  | none => s.countStale
  | some k =>
    match k.state with
    | .alertingRemote q a _ => if q = p ∧ a = pos then connect r.slot s else s.countStale
    | .connected => s
    | .waiting | .offered .. | .alertingLocal _ => s.countStale

/-- RETURNED (R157). -/
def takeReturned (p : Station) (r : CallRef) (pos : Position) (s : State) : State :=
  match s.named r with
  | none => s.countStale
  | some k =>
    match k.state with
    | .alertingRemote q a _ =>
      if q = p ∧ a = pos ∧ 0 < s.free then clearMark r.slot (some p) true (fun t => t.place (.unroute k.trunk)) s
      else s.countStale
    | .waiting | .offered .. | .alertingLocal _ | .connected => s.countStale

/-- The call a CLAIM draws (R161): earliest arrival, lower home group, earlier queue place. -/
def pickForClaim (s : State) (p : Station) (g : Group) : Option (Slot × Call) :=
  s.queuedSlots.foldl (fun m c =>
    match s.selectable c with
    | none => m
    | some k =>
      if k.tier ≠ 0 ∧ g ∈ s.eligibleGroups k ∧ k.declined[p] = false then
        match m with
        | none => some (c, k)
        | some (_, j) => if k.arrival < j.arrival then some (c, k) else m
      else m) none

/-- CLAIM (R161), in JOINING and ACTIVE. -/
def takeClaim (p : Station) (g : Group) (pos : Position) (score : Nat) (s : State) : State :=
  if s.bus.station = .active ∧ 0 < score then
    match pickForClaim s p g with
    | none => s.reply p (.nocall g pos)
    | some (c, k) => if s.ordinaryRoom = 0 then s else startOffer c k p g s
  else s.reply p (.nocall g pos)

/-! ### Frames at the peer (9.3, 9.4) -/

/-- A repeated OFFER (R154). -/
def answerRepeat (h : Station) (r : CallRef) (p : Position) (s : State) : State :=
  match (s.agent p).state with
  | .talking _ =>
    if 2 ≤ s.replyRoom then (s.reply h (.accept r p 0)).reply h (.answered r p)
    else s.reply h (.decline r .noRoom)
  | .loggedOut | .notReady _ | .ready _ | .claiming _ | .alerting .. | .wrap .. | .wrapOver .. => s.reply h (.accept r p 0)

/-- OFFER (R153), in JOINING and ACTIVE. -/
def takeOffer (h : Station) (r : CallRef) (g : Group) (priority : Nat) (tier : Fin 3) (tag : Half) (s : State) : State :=
  match s.boundAgent r with
  | some p => answerRepeat h r p s
  | none =>
    if s.defines g = false ∨ tier = 0 ∨ 3 < priority then s.reply h (.decline r .notServed)
    else
      match bestAgent s fun p => scoreIn s (s.agent p) g with
      | none => s.reply h (.decline r .noAgent)
      | some (p, score) =>
        if s.free = 0 ∨ s.replyRoom = 0 then s.reply h (.decline r .noRoom)
        else (((bind p r g s).place (.alert p h tag)).reply h (.accept r p score))

/-- CANCEL (R159). -/
def takeCancel (r : CallRef) (s : State) : State :=
  match s.boundAgent r with
  | none => s
  | some p =>
    if (s.agent p).state.alertingNow ∧ 0 < s.free then unbind p s else s.countStale

/-- NOCALL (R162): the adjustment comes after the agent is READY and before its local-only attempt. -/
def takeNocall (h : Station) (g : Group) (p : Position) (s : State) : State :=
  match s.claimOf p with
  | none => s.countStale
  | some r =>
    if r.peer = h ∧ r.group = g then attemptAgent false p (adjustNocall h g (endClaim p s)) else s.countStale

/-! ### Taking a valid frame (R124) -/

/-- The naming check of R148. -/
def namingPasses (s : State) (src : Station) : Body → Bool
  | .offer r .. | .cancel r => r.home = src
  | .accept r .. | .decline r _ | .answered r _ | .returned r _ => s.bus.id = some r.home
  | .claim _ st _ _ => st = src
  | .nocall .. | .summary _ => true

/-- A SUMMARY goes to the Peer View, which hands the bests before it to the Distribution Engine (R136). -/
def summaryTaken (src : Station) (es : List Entry) (s : State) : State :=
  let before := (List.finRange 16).map fun g => (peerEntry s src g).best
  raisedPass src before (takeSummary src es s)

/-- The Exchange Engine handles a frame by its kind (R148 to R162). -/
def handle (src : Station) (body : Body) (s : State) : State :=
  if namingPasses s src body then
    match body with
    | .summary es => summaryTaken src es s
    | .offer r g pr t tag _ => takeOffer src r g pr t tag s
    | .claim g _ p sc => takeClaim src g p sc s
    | .accept r p _ => takeAccept src r p s
    | .decline r why => takeDecline src r why s
    | .cancel r => takeCancel r s
    | .answered r p => takeAnswered src r p s
    | .returned r p => takeReturned src r p s
    | .nocall g p => takeNocall src g p s
  else s.countStale

/-- Whether the station takes the kind in its state: OFFER and CLAIM are ignored while ISOLATED (R124). -/
def StationState.takesKind : StationState → Body → Bool
  | .joining _, _ | .active, _ => true
  | .busFault _, .offer .. | .busFault _, .claim .. | .duplicateId, .offer .. | .duplicateId, .claim .. => false
  | .busFault _, _ | .duplicateId, _ => true
  | .starting, _ | .unconfigured, _ => false

/-- The duplicate test for a frame of this station's own ID (R124 step 2, R132). -/
def duplicateTest (wasSending : Bool) (s : State) : State :=
  if wasSending ∨ s.bus.station = .duplicateId then s else isolate .duplicateId s

/-- A valid frame is taken (R124). -/
def takeFrame (f : Frame) (s : State) : State :=
  let counted := s.modBus fun b => { b with framesReceived := count1 b.framesReceived, sentFirstByte := false }
  if s.bus.id = some f.source then duplicateTest s.bus.sentFirstByte counted
  else
    let heard := hearPeer f.source counted
    if f.dest.val = 15 ∨ s.bus.id.map toDest = some f.dest then
      if s.bus.station.takesKind f.body then handle f.source f.body heard else heard
    else heard

/-- What the receiver does with a frame: nothing in STARTING and UNCONFIGURED; a frame that fails a test is
counted under check errors; a valid one is taken (R123, R124). -/
def receive (f : Option Frame) (s : State) : State :=
  if s.outOfService then s
  else
    match f with
    | some f => takeFrame f s
    | none => s.modBus fun b => { b with checkErrors := count1 b.checkErrors, sentFirstByte := false }

end Sys2Proof.Machine
end

