-- ==== Sys2Proof/Machine/Flags.lean ====
section
/-! DEFINITION. The block's flags: the attention causes and the attention line (R172, R175), and the frame
of every command: its effect, then the line's response to it. -/

namespace Sys2Proof.Machine

/-- The causes in priority order (R172). -/
def causes : List Cause := [.loadFault, .clockLoss, .isolated, .peerChange, .directivesPending, .agentChange]

/-- The marked positions, ascending (R23). -/
def marked (s : State) : List Position := (List.finRange 48).filter fun p => (s.agent p).changed

/-- Whether a cause is pending (R172). -/
def causePending (s : State) : Cause → Bool
  | .loadFault => s.port.loadFault.isSome
  | .clockLoss => s.time.clockLoss
  | .isolated => s.port.isolated.isSome
  | .peerChange => anyStation s.peers.changed
  | .directivesPending => !s.port.directives.isEmpty
  | .agentChange => !(marked s).isEmpty

/-- The codes of the isolation causes: so 11.5 codes the report field, and so the model codes the detail of ISOLATED too
(log entry 51). -/
def IsolationCause.code : IsolationCause → Nat
  | .busFault => 1
  | .duplicateId => 2

/-- The detail of a cause (R172, 11.5), as a number. Three of them the spec leaves open.
DESIGN CHOICE: the changed set of PEER_CHANGE is laid out as 11.5 lays out the present-peer set, bit n standing for
station n; unsafe, log entry 44.
DESIGN CHOICE: the isolation cause of ISOLATED has the codes that 11.5 gives the report field of that name; unsafe, log
entry 51.
DEDUCED: CLOCK_LOSS, whose detail is "none", drives zero; unsafe, log entry 52. -/
def causeDetail (s : State) : Cause → Nat
  | .loadFault => s.port.loadFault.getD 0
  | .clockLoss => 0
  | .isolated => (s.port.isolated.map IsolationCause.code).getD 0
  | .peerChange => stationBits s.peers.changed
  | .directivesPending => s.port.directives.length
  | .agentChange => (marked s).length

/-- The pending cause of highest priority (R173). -/
def topCause (s : State) : Option Cause := causes.find? (causePending s)

/-- The cause byte of an ATTENTION: NONE is 0 (11.5). -/
def causeByte : Option Cause → Nat
  | none => 0
  | some .loadFault => 1
  | some .clockLoss => 2
  | some .isolated => 3
  | some .peerChange => 4
  | some .directivesPending => 5
  | some .agentChange => 6

/-- Whether the image chose pulse mode; level mode while the configuration is absent (R175). -/
def State.pulseMode (s : State) : Bool := s.conf.pulseMode

/-- Whether the attention line is driven low (R175). -/
def lineLow (s : State) : Bool := if s.pulseMode then s.port.pulse else causes.any (causePending s)

/-- In pulse mode, a cause pending after the command and not before it drives the line low (R175). -/
def attend (before after : State) : State :=
  if after.pulseMode && causes.any (fun c => causePending after c && !causePending before c) then
    after.modPort fun p => { p with pulse := true }
  else after

/-- A command: its effect on the state, and the attention line's response. Every command ends in a next
state. -/
def event (effect : State → State) (s : State) : Host.Outcome State Fault Refusal := .next (attend s (effect s))

end Sys2Proof.Machine
end

