-- ==== Sys2Proof/Machine/Port.lean ====
section
/-! DEFINITION. The Shelf Port's transactions (Chapter 10): the select line, EVENT answers, the clocking of
TAKE, REPORT, ATTENTION and CHANGES item by item, and the two resets (R181). -/

namespace Sys2Proof.Machine

/-! ### Resets (R181) -/

/-- A reset that finds the sync input as `sync` says; the commands still waiting stay waiting. -/
def resetBlock (sync : Bool) (s : State) : State := { State.resetWith sync with pending := s.pending }

/-- The reset of a RESTART (R166): the same as power-on, with the sync input as it is then found (R115). The record of the
bytes driven keeps the outcome the shelf processor has just read (log entry 9). -/
def restartReset (sync : Bool) (s : State) : State := (resetBlock sync s).drive s.port.out

/-! ### The select line (R165) -/

/-- The port's transaction becomes `t`. -/
def State.inTransaction (s : State) (t : Transaction) : State := s.modPort fun p => { p with transaction := t }

/-- Select rises: the completion point of a RESTART whose outcome has been clocked out, and the end of any
other transaction (R165, R166). -/
def selectRises (s : State) : State :=
  match s.port.transaction with
  | .restart (some sync) => restartReset sync s
  | .restart none | .idle | .take .. | .report .. | .attention .. | .changes .. => s.inTransaction .idle

/-- Select falls and the command bytes are clocked in: any earlier transaction has ended with select high. -/
def opened (t : State → Transaction) (s : State) : State :=
  let s' := (selectRises s).drive []
  s'.inTransaction (t s')

/-- More bytes are driven. -/
def State.emit (s : State) (bytes : List Byte) : State := s.modPort fun p => { p with out := p.out ++ bytes }

/-! ### Directives on the port (11.5) -/

/-- The bytes of a directive, EMPTY being none (R168, 11.5). -/
def directiveBytes : Option Directive → List Byte
  | none => [0]
  | some (.listen t n) => [1, lowByte t.val, lowByte n]
  | some (.route t st p) => [2, lowByte t.val, lowByte st.val, lowByte p.val]
  | some (.unroute t) => [3, lowByte t.val]
  | some (.alert p st tag) => [4, lowByte p.val, lowByte st.val] ++ twoBytes tag.toNat
  | some (.withdraw p) => [5, lowByte p.val]
  | some (.divert t code) => [6, lowByte t.val, code]

/-! ### Report fields (R24, R171, 11.5) -/

/-- The code of an agent state (11.5). -/
def AgentState.code : AgentState → Nat
  | .loggedOut => 0
  | .notReady _ => 1
  | .ready _ => 2
  | .claiming _ => 3
  | .alerting .. => 4
  | .talking _ => 5
  | .wrap .. => 6
  | .wrapOver .. => 7

/-- The binding field: the call reference, or the no-call value 0xFFFF (R24, 11.5). DESIGN CHOICE: 11.5 lays out a call
reference within bus frames only; the model lays it out alike on the Shelf Port, home station and generation in the first
byte and the slot in the second; unsafe, log entry 46. -/
def bindingBytes (st : AgentState) : List Byte :=
  match st.binding with
  | some b => [lowByte (16 * b.ref.home.val + b.ref.gen.val), lowByte b.ref.slot.val]
  | none => [255, 255]

/-- The not-ready reason field (R24). -/
def AgentState.reasonField : AgentState → Nat
  | .notReady r => r
  | .loggedOut | .ready _ | .claiming _ | .alerting .. | .talking _ | .wrap .. | .wrapOver .. => 0

/-- The score in the primary group (R2, R24). -/
def primaryScore (s : State) (a : Agent) : Nat :=
  match a.members.head? with
  | some m => scoreIn s a m.group
  | none => 0

/-- A field of REPORT AGENT (R24, R171). -/
def agentField (s : State) (p : Position) (field : Nat) : List Byte :=
  let a := s.agent p
  match field with
  | 0 => [lowByte a.state.code]
  | 1 => [lowByte a.state.reasonField]
  | 2 => bindingBytes a.state
  | 3 => twoBytes (idleInput s.now a)
  | 4 => twoBytes (occupancy s a)
  | 5 => [lowByte (debtInput a)]
  | 6 => twoBytes (primaryScore s a)
  | 7 => twoBytes a.counts.answered
  | 8 => twoBytes a.counts.talk
  | 9 => twoBytes a.counts.wrap
  | 10 => twoBytes a.counts.overrun
  | 11 => twoBytes a.counts.rona
  | _ => [0]

/-- The clearing of a REPORT AGENT field wholly clocked out (R24, R170). -/
def clearAgentField (p : Position) (field : Nat) (s : State) : State :=
  let on (f : AgentCounts → AgentCounts) := s.alterAgent p fun a => { a with counts := f a.counts }
  match field with
  | 7 => on fun n => { n with answered := 0 }
  | 8 => on fun n => { n with talk := 0 }
  | 9 => on fun n => { n with wrap := 0 }
  | 10 => on fun n => { n with overrun := 0 }
  | 11 => on fun n => { n with rona := 0 }
  | _ => s

/-- A field of REPORT GROUP (R171). -/
def groupField (s : State) (g : Group) (field : Nat) : List Byte :=
  let n := s.counts[g]
  match field with
  | 0 => [lowByte (s.queue g).length]
  | 1 => [lowByte (peerWaiting s g)]
  | 2 => twoBytes (oldestAge s g)
  | 3 => [lowByte (readyCount s g)]
  | 4 => twoBytes s.aht[g]
  | 5 => twoBytes (headEwt s g)
  | 6 => twoBytes n.offeredIn
  | 7 => twoBytes n.answeredLocal
  | 8 => twoBytes n.answeredByPeers
  | 9 => twoBytes n.takenFromPeers
  | 10 => twoBytes n.abandoned
  | 11 => twoBytes n.diverted
  | 12 => twoBytes n.ronaReturns
  | _ => [0]

/-- The clearing of a REPORT GROUP field (R46, R170). -/
def clearGroupField (g : Group) (field : Nat) (s : State) : State :=
  match field with
  | 6 => s.alterCounts g fun n => { n with offeredIn := 0 }
  | 7 => s.alterCounts g fun n => { n with answeredLocal := 0 }
  | 8 => s.alterCounts g fun n => { n with answeredByPeers := 0 }
  | 9 => s.alterCounts g fun n => { n with takenFromPeers := 0 }
  | 10 => s.alterCounts g fun n => { n with abandoned := 0 }
  | 11 => s.alterCounts g fun n => { n with diverted := 0 }
  | 12 => s.alterCounts g fun n => { n with ronaReturns := 0 }
  | _ => s

/-- The code of a station state (11.5). -/
def StationState.code : StationState → Nat
  | .starting => 0
  | .unconfigured => 1
  | .joining _ => 2
  | .active => 3
  | .busFault _ | .duplicateId => 4

/-- The isolation cause of a station state: none outside ISOLATED (R171). -/
def StationState.cause : StationState → Option IsolationCause
  | .busFault _ => some .busFault
  | .duplicateId => some .duplicateId
  | .starting | .unconfigured | .joining _ | .active => none

/-- The code of a cadence (11.5). -/
def Cadence.code : Cadence → Nat
  | .brisk => 0
  | .easy => 1
  | .slow => 2

/-- The underruns field: the sum of the sixteen counts, stopping at 65535 (R116). -/
def underruns (s : State) : Nat := saturate 65535 ((s.clips.streams.toList.map Stream.underruns).sum)

/-- A field of REPORT STATION (R171). -/
def stationField (s : State) (field : Nat) : List Byte :=
  match field with
  | 0 => [lowByte s.bus.station.code]
  | 1 => [lowByte ((s.bus.station.cause.map IsolationCause.code).getD 0)]
  | 2 => twoBytes (stationBits (presentPeers s))
  | 3 => [lowByte s.builder.cadence.code]
  | 4 => twoBytes s.bus.framesSent
  | 5 => twoBytes s.bus.framesReceived
  | 6 => twoBytes s.bus.checkErrors
  | 7 => twoBytes s.bus.collisions
  | 8 => twoBytes s.bus.dropped
  | 9 => twoBytes s.exch.stale
  | 10 => twoBytes s.bus.repliesLost
  | 11 => twoBytes s.treat.shortages
  | 12 => twoBytes s.treat.stalls
  | 13 => twoBytes (underruns s)
  | 14 => twoBytes s.deferrals
  | 15 => twoBytes s.load.clamped
  | _ => [0]

/-- The clearing of a REPORT STATION field (R170, R116). -/
def clearStationField (field : Nat) (s : State) : State :=
  match field with
  | 4 => s.modBus fun b => { b with framesSent := 0 }
  | 5 => s.modBus fun b => { b with framesReceived := 0 }
  | 6 => s.modBus fun b => { b with checkErrors := 0 }
  | 7 => s.modBus fun b => { b with collisions := 0 }
  | 8 => s.modBus fun b => { b with dropped := 0 }
  | 9 => s.modExch fun x => { x with stale := 0 }
  | 10 => s.modBus fun b => { b with repliesLost := 0 }
  | 11 => s.modTreat fun t => { t with shortages := 0 }
  | 12 => s.modTreat fun t => { t with stalls := 0 }
  | 13 => s.modClips fun c => { c with streams := alterAll c.streams fun x => { x with underruns := 0 } }
  | 14 => s.setDeferrals 0
  | 15 => s.modLoad fun l => { l with clamped := 0 }
  | _ => s

/-- A field of a report; an unknown subject gives zero bytes (R170). -/
def reportField (s : State) : ReportOf → Nat → List Byte
  | .agent p, n => agentField s p n
  | .group g, n => groupField s g n
  | .station, n => stationField s n
  | .unknown, _ => [0]

/-- The clearing of a report's field (R170). -/
def clearField : ReportOf → Nat → State → State
  | .agent p, n, s => clearAgentField p n s
  | .group g, n, s => clearGroupField g n s
  | .station, n, s => clearStationField n s
  | .unknown, _, s => s

/-! ### Attention (R173) -/

/-- The clearing of the cause an ATTENTION returned, at its completion point (R173). `detail` is the changed
set it returned: its stations leave the set. DESIGN CHOICE: so does a station of it that changed again after the
first bit, where R173 is not plain; unsafe, log entry 42. -/
def clearCause (cause : Option Cause) (detail : Nat) (s : State) : State :=
  match cause with
  | some .clockLoss => if s.time.syncPresent then s.modTime fun t => { t with clockLoss := false } else s
  | some .isolated => s.modPort fun p => { p with isolated := none }
  | some .peerChange => s.modPeers fun v =>
      { v with changed := Vector.ofFn fun i => v.changed[i] && !(detail.testBit i.val) }
  | some .loadFault | some .directivesPending | some .agentChange | none => s

/-! ### Items of an open transaction -/

/-- The first bit of the next item is driven: what the item carries is taken now (R170, R173). -/
def firstBit (s : State) : State :=
  match s.port.transaction with
  | .report about n none => s.inTransaction (.report about n (some (reportField s about n)))
  | .attention none done => s.inTransaction (.attention (some (topCause s, ((topCause s).map (causeDetail s)).getD 0)) done)
  | .report _ _ (some _) | .attention (some _) _ | .idle | .take .. | .changes .. | .restart _ => s

/-- The last bit of the item is clocked out: TAKE removes the directive (R168), a report field is cleared
(R170), an ATTENTION completes (R173), a CHANGES clears the position's mark (R174). When nothing more is to be driven, zero bytes are (R165). -/
def lastBit (s : State) : State :=
  let s := firstBit s
  match s.port.transaction with
  | .take d false =>
    let driven := (s.emit (directiveBytes d)).inTransaction (.take d true)
    if d.isSome then removeHead driven else driven
  | .report about n (some bytes) => clearField about n ((s.emit bytes).inTransaction (.report about (n + 1) none))
  | .attention (some (cause, detail)) false =>
    clearCause cause detail <|
      (s.emit (lowByte (causeByte cause) :: twoBytes detail)).inTransaction (.attention (some (cause, detail)) true)
  | .changes list 0 => (s.emit [lowByte list.length]).inTransaction (.changes list 1)
  | .changes list (n + 1) =>
    match list[n]? with
    | some p =>
      ((s.emit [lowByte p.val]).inTransaction (.changes list (n + 2))).alterAgent p fun a => { a with changed := false }
    | none => s.emit [0]
  | .take _ true | .attention _ true => s.emit [0]
  | .idle | .report _ _ none | .attention none _ | .restart _ => s

/-- Clock a number of items. -/
def clockItems : Nat → State → State
  | 0, s => s
  | n + 1, s => clockItems n (lastBit s)

/-- A clocked transaction (R165): `t` is the transaction its command bytes open, and `same` says whether the
open transaction is one of its kind. -/
def clocked (t : State → Transaction) (same : Transaction → Bool) (c : Clocking) (s : State) : State :=
  match c with
  | .through n => selectRises (clockItems n (opened t s))
  | .opens => opened t s
  | .firstBit => if same s.port.transaction then firstBit s else s
  | .lastBit => if same s.port.transaction then lastBit s else s

/-! ### EVENT transactions (R166) -/

/-- `n` whole bytes are clocked out of an answer before select rises: what the rise cuts short is not driven, and
zero bytes follow the answer (R165, R166). -/
def clockedOut (n : Nat) (answer : List Byte) : List Byte := (answer ++ List.replicate n 0).take n

/-- The answer the part holds is clocked out for `n` bytes (R165, R166). -/
def State.clockOut (n : Nat) (s : State) : State := s.modPort fun p => { p with out := clockedOut n p.out }

/-- An EVENT from the fall of select to its rise: any earlier transaction has ended, the event is taken whole at
its completion point, and `n` bytes of its answer are clocked out after it (R166). -/
def shelfEvent (n : Nat) (act : State → State) (s : State) : State := (act (selectRises s)).clockOut n

/-- The checks of an agent event before its own: start and range (R4 steps 1 to 3). -/
def agentEvent (n position : Nat) (fieldsInRange : State → Bool) (act : Position → State → State) : State → State :=
  shelfEvent n fun s =>
    if s.outOfService then s.answer .refusedStarting
    else
      match (if h : position < 48 then some (⟨position, h⟩ : Position) else none) with
      | none => s.answer .refusedRange
      | some p => if fieldsInRange s then act p s else s.answer .refusedRange

end Sys2Proof.Machine
end

