-- ==== Sys2Proof/Machine/AgentEvents.lean ====
section
/-! DEFINITION. The agent key events (1.2), and the EVENT of an unknown kind (R166). -/

namespace Sys2Proof.Machine

/-- Every field in range: for the events whose one field is the position (R4). -/
def noFields (_ : State) : Bool := true

/-- The record becomes READY now and gets a full agent-side attempt (R6, R9, R10, R18). -/
def becomeReady (p : Position) (s : State) : State := attemptAgent true p (s.enter p (.ready s.now))

/-! ### AGENT_LOGIN, AGENT_LOGOUT (R5, R12) -/

/-- A taken AGENT_LOGIN (R5). -/
def login (p : Position) (members : List Membership) (s : State) : State :=
  (s.enter p (.notReady 0)).alterAgent p fun a =>
    { a with members := members, talkS := 0, extensionUsed := false, busyCur := 0, busyPrev := 0, debtCur := 0, debtPrev := 0 }

/-- AGENT_LOGIN in range (R5). -/
def loginEvent (members : List (Nat × Nat)) (p : Position) (s : State) : State :=
  match membersIn s members, (s.agent p).state with
  | some ms, .loggedOut => (login p ms s).answer .taken
  | _, _ => s.answer .refusedState

/-- AGENT_LOGIN (R4, R5). -/
def execAgentLogin (position : Nat) (members : LastField (List (Nat × Nat))) : State → Host.Outcome State Fault Refusal :=
  event (agentEvent members.clocked position (fun s => (membersIn s members.value).isSome) (loginEvent members.value))

/-- A taken AGENT_LOGOUT (R12). -/
def logout (p : Position) (s : State) : State :=
  ((windUp p s).enter p .loggedOut).alterAgent p fun a => { a with members := [] }

/-- AGENT_LOGOUT in range (R12). -/
def logoutEvent (p : Position) (s : State) : State :=
  match (s.agent p).state with
  | .notReady _ | .ready _ | .claiming _ | .wrap .. | .wrapOver .. => (logout p s).answer .taken
  | .loggedOut | .alerting .. | .talking _ => s.answer .refusedState

/-- AGENT_LOGOUT (R4, R12). -/
def execAgentLogout (position : LastField Nat) : State → Host.Outcome State Fault Refusal :=
  event (agentEvent position.clocked position.value noFields logoutEvent)

/-! ### AGENT_READY, AGENT_NOT_READY (R6, R7) -/

/-- AGENT_READY in range (R6). -/
def readyEvent (p : Position) (s : State) : State :=
  match (s.agent p).state with
  | .notReady _ | .wrap .. | .wrapOver .. => (becomeReady p (windUp p s)).answer .taken
  | .ready _ | .claiming _ => s.answer .taken
  | .loggedOut | .alerting .. | .talking _ => s.answer .refusedState

/-- AGENT_READY (R4, R6). -/
def execAgentReady (position : LastField Nat) : State → Host.Outcome State Fault Refusal :=
  event (agentEvent position.clocked position.value noFields readyEvent)

/-- AGENT_NOT_READY in range (R7). -/
def notReadyEvent (reason : Nat) (p : Position) (s : State) : State :=
  match (s.agent p).state with
  | .ready _ | .claiming _ | .wrap .. | .wrapOver .. => ((windUp p s).enter p (.notReady reason)).answer .taken
  | .alerting _ b _ =>
    if s.free < releaseNeed b then s.answer .refusedFull else (releaseAlert p b reason s).answer .taken
  | .loggedOut | .notReady _ | .talking _ => s.answer .refusedState

/-- AGENT_NOT_READY (R4, R7). -/
def execAgentNotReady (position : Nat) (reason : LastField Nat) : State → Host.Outcome State Fault Refusal :=
  event (agentEvent reason.clocked position (fun _ => reason.value ≤ 13) (notReadyEvent reason.value))

/-! ### AGENT_ANSWER (R8) -/

/-- What an answered alert hands on: the call CONNECTED, or ANSWERED and taken from peers (R8, R155). -/
def answerBound (p : Position) (b : Binding) (s : State) : State :=
  if b.isLocal then
    match s.alertedCall p b with
    | some _ => connect b.ref.slot s
    | none => s
  else (countTakenFromPeers b.group s).reply b.ref.home (.answered b.ref p)

/-- AGENT_ANSWER in range (R8); a RONA that has left the room-wait list lets the next waiter fit (R169). -/
def answerEvent (p : Position) (s : State) : State :=
  match (s.agent p).state with
  | .alerting _ b _ => (serveRoom (answerBound p b (talk p b s))).answer .taken
  | .talking _ => s.answer .taken
  | .loggedOut | .notReady _ | .ready _ | .claiming _ | .wrap .. | .wrapOver .. => s.answer .refusedState

/-- AGENT_ANSWER (R4, R8). -/
def execAgentAnswer (position : LastField Nat) : State → Host.Outcome State Fault Refusal :=
  event (agentEvent position.clocked position.value noFields answerEvent)

/-! ### AGENT_CLEAR and the wrap keys (R9, R10, R11) -/

/-- A taken AGENT_CLEAR, by the wrap budget of the bound group (R9). -/
def clear (p : Position) (g : Group) (s : State) : State :=
  let s := s.alterAgent p fun a => { a with extensionUsed := false }
  let rec' := s.groupRec g
  let fresh : WrapWork := ⟨g, 0, 0⟩
  if 0 < rec'.wrapBudget then s.enter p (.wrap fresh (s.now + 10 * rec'.wrapBudget))
  else if rec'.autoReady then becomeReady p (completeWrap p fresh s)
  else s.enter p (.wrapOver fresh s.now)

/-- AGENT_CLEAR in range (R9). -/
def clearEvent (p : Position) (s : State) : State :=
  match (s.agent p).state with
  | .talking b => (clear p b.group s).answer .taken
  | .loggedOut | .notReady _ | .ready _ | .claiming _ | .alerting .. | .wrap .. | .wrapOver .. => s.answer .refusedState

/-- AGENT_CLEAR (R4, R9). -/
def execAgentClear (position : LastField Nat) : State → Host.Outcome State Fault Refusal :=
  event (agentEvent position.clocked position.value noFields clearEvent)

/-- WRAP_DONE in range (R10). -/
def wrapDoneEvent (p : Position) (s : State) : State :=
  match (s.agent p).state with
  | .wrap w _ | .wrapOver w _ => (becomeReady p (completeWrap p w s)).answer .taken
  | .loggedOut | .notReady _ | .ready _ | .claiming _ | .alerting .. | .talking _ => s.answer .refusedState

/-- WRAP_DONE (R4, R10). -/
def execWrapDone (position : LastField Nat) : State → Host.Outcome State Fault Refusal :=
  event (agentEvent position.clocked position.value noFields wrapDoneEvent)

/-- The one extension of a wrap (R11): in WRAP the end moves later, with no change of state; in WRAP_OVER an
extension above 0 returns the record to WRAP. -/
def extendWrap (p : Position) (s : State) : State :=
  let s := s.alterAgent p fun a => { a with extensionUsed := true }
  match (s.agent p).state with
  | .wrap w e => s.alterAgent p fun a => { a with state := .wrap w (e + 10 * (s.groupRec w.group).extension) }
  | .wrapOver w _ =>
    if 0 < (s.groupRec w.group).extension then s.enter p (.wrap w (s.now + 10 * (s.groupRec w.group).extension)) else s
  | .loggedOut | .notReady _ | .ready _ | .claiming _ | .alerting .. | .talking _ => s

/-- WRAP_EXTEND in range (R11). -/
def wrapExtendEvent (p : Position) (s : State) : State :=
  match (s.agent p).state with
  | .wrap .. | .wrapOver .. =>
    if (s.agent p).extensionUsed then s.answer .refusedState else (extendWrap p s).answer .taken
  | .loggedOut | .notReady _ | .ready _ | .claiming _ | .alerting .. | .talking _ => s.answer .refusedState

/-- WRAP_EXTEND (R4, R11). -/
def execWrapExtend (position : LastField Nat) : State → Host.Outcome State Fault Refusal :=
  event (agentEvent position.clocked position.value noFields wrapExtendEvent)

/-! ### An unknown event kind (R166) -/

/-- UNKNOWN_EVENT_KIND: an event with no fields, refused; whatever the kind byte, nothing else changes (R166). The kind
byte is its last byte. -/
def execUnknownEventKind (kind : LastField Nat) : State → Host.Outcome State Fault Refusal :=
  event <| shelfEvent kind.clocked fun s => s.answer (if s.outOfService then .refusedStarting else .refusedRange)

end Sys2Proof.Machine
end

