-- ==== Sys2Proof/Machine/BusEvents.lean ====
section
/-! DEFINITION. The meanings of the transmitter's events (R119, R120). -/

namespace Sys2Proof.Machine

/-- BUS_ATTEMPT: the interframe gap and `slots` whole slots of recessive line (R119, R120). -/
def execBusAttempt (slots : Nat) : State → Host.Outcome State Fault Refusal := event fun s => s.modBus (Bus.attempt slots)

/-- The frame in hand has left: nothing is in hand and nothing on the line. -/
def Bus.release (b : Bus) : Bus := { b with inHand := none, attempts := 0, backoff := none, line := none }

/-- A frame is sent: counted, the drop run 0, and the frame leaves its queue (R119). -/
def Bus.sent (lane : Lane) (b : Bus) : Bus :=
  { (b.leave lane).release with framesSent := count1 b.framesSent, dropRun := 0, sentFirstByte := false }

/-- The return to JOINING of a sent probe (R131, R146). -/
def rejoin (s : State) : State :=
  match s.bus.station with
  | .busFault _ => startBrisk (enterJoining s)
  | .starting | .unconfigured | .joining _ | .active | .duplicateId => s

/-- After an entry has left the ordinary queue, the retry pass (R76, R127). -/
def afterLeaving (lane : Lane) (s : State) : State := if lane = .ordinary then retryIfRoom s else s

/-- The frame on the line is sent (R119, R131, R146). -/
def frameSent (lane : Lane) (f : Frame) (s : State) : State :=
  afterLeaving lane (rejoin (noteSent f.body (s.modBus (Bus.sent lane)))).choose

/-- FRAME_SENT (R119). -/
def execFrameSent : State → Host.Outcome State Fault Refusal :=
  event fun s =>
    match s.bus.inHand, s.bus.line with
    | some lane, some f => frameSent lane f s
    | _, _ => s

/-- The attempt stops: the collision counts, and its attempt (R120). -/
def Bus.collide (b : Bus) : Bus :=
  { b with line := none, collisions := count1 b.collisions, attempts := b.attempts + 1 }

/-- New content beside an attempt replaces the old once the attempt is over (R126). -/
def Bus.renew (b : Bus) : Bus := { b with slot := b.beside.orElse (fun _ => b.slot), beside := none }

/-- A frame is dropped after its 16th attempt (R120, R127). -/
def Bus.drop (lane : Lane) (b : Bus) : Bus :=
  { (b.leave lane).release with
    dropped := count1 b.dropped, dropRun := if b.station.sendsReplies then b.dropRun + 1 else b.dropRun }

/-- The frame in hand is dropped: at a drop run of 3 the station is isolated, else the transmitter chooses
again (R120, R127). Ordinary frames that leave, dropped or abandoned, give one retry pass (log entry 13). -/
def dropFrame (lane : Lane) (s : State) : State :=
  let d := s.modBus (Bus.drop lane)
  if s.bus.station.sendsReplies ∧ 3 ≤ d.bus.dropRun then
    if s.bus.ordinary.isEmpty then enterIsolated .busFault d else retryIfRoom (enterIsolated .busFault d)
  else afterLeaving lane d.choose

/-- A collision (R120, R126). -/
def collide (lane : Lane) (s : State) : State :=
  let c := s.modBus Bus.collide
  if lastAttempt ≤ c.bus.attempts then dropFrame lane c
  else c.modBus fun b => (if lane = .summary then b.renew else b).backOff

/-- COLLISION (R120). -/
def execCollision : State → Host.Outcome State Fault Refusal :=
  event fun s =>
    match s.bus.inHand, s.bus.line with
    | some lane, some _ => collide lane s
    | _, _ => s

end Sys2Proof.Machine
end

