-- ==== Sys2Proof/Machine/Deadlines.lean ====
section
/-! DEFINITION. The meanings of the deadlines and passes. Each is taken when its condition holds at the
command, and changes nothing otherwise (log entry 2). -/

namespace Sys2Proof.Machine

/-! ### Agent deadlines (R16, R18, R19, R163) -/

/-- The binding of a record whose alert deadline has been reached (R16). -/
def alertDue (s : State) (p : Position) : Option Binding :=
  match (s.agent p).state with
  | .alerting _ b d => if d ≤ s.now then some b else none
  | .loggedOut | .notReady _ | .ready _ | .claiming _ | .talking _ | .wrap .. | .wrapOver .. => none

/-- Whether a waiter may be taken now: it does not wait, or is at the head of the list (R169). -/
def State.mayServe (s : State) (w : RoomWait) : Bool := w ∉ s.port.waits || s.port.waits.head? = some w

/-- ALERT_DEADLINE: RONA at once with room for it, else it waits for room (R16, R169). One that waits already
keeps its place (log entry 30). -/
def execAlertDeadline (p : Position) : State → Host.Outcome State Fault Refusal :=
  event fun s =>
    match alertDue s p with
    | some b =>
      if releaseNeed b ≤ s.free && s.mayServe (.rona p) then takeRona p (s.unawait (.rona p)) else s.await (.rona p)
    | none => s

/-- RONA: the release of a due alert with room for it (R16; log entry 30). -/
def execRona (p : Position) : State → Host.Outcome State Fault Refusal :=
  event fun s =>
    match alertDue s p with
    | some b => if releaseNeed b ≤ s.free && s.mayServe (.rona p) then takeRona p (s.unawait (.rona p)) else s
    | none => s

/-- WRAP_EXPIRY (R18). -/
def execWrapExpiry (p : Position) : State → Host.Outcome State Fault Refusal :=
  event fun s =>
    match (s.agent p).state with
    | .wrap w e =>
      if e ≤ s.now then
        if (s.groupRec w.group).autoReady then becomeReady p (completeWrap p w s) else s.enter p (.wrapOver w s.now)
      else s
    | .loggedOut | .notReady _ | .ready _ | .claiming _ | .alerting .. | .talking _ | .wrapOver .. => s

/-- GRACE_DEADLINE (R19): reason 14, WRAP_LIMIT. -/
def execGraceDeadline (p : Position) : State → Host.Outcome State Fault Refusal :=
  event fun s =>
    match (s.agent p).state with
    | .wrapOver w t =>
      if 0 < (s.groupRec w.group).graceLimit ∧ t + 10 * (s.groupRec w.group).graceLimit ≤ s.now then
        (completeWrap p w s).enter p (.notReady 14)
      else s
    | .loggedOut | .notReady _ | .ready _ | .claiming _ | .alerting .. | .talking _ | .wrap .. => s

/-- CLAIM_DEADLINE (R163). -/
def execClaimDeadline (p : Position) : State → Host.Outcome State Fault Refusal :=
  event fun s =>
    match s.claimOf p with
    | some r => if r.deadline ≤ s.now then attemptAgent false p (endClaim p s) else s
    | none => s

/-! ### Call deadlines (R41, R43, R44, R152, R158) -/

/-- The tier a tier deadline raises a call to. -/
def raisedTier : TierStep → Fin 3
  | .one => 1
  | .two => 2

/-- The tier time of a group record, in seconds from the arrival stamp (R41). -/
def tierTime (g : GroupRec) : TierStep → Nat
  | .one => g.t1
  | .two => g.t2

/-- A tier change with the attempt of a call open to selection (R41). -/
def tierChange (c : Slot) (t : Fin 3) (s : State) : State := attemptCall c (raiseTier c t s)

/-- TIER_DEADLINE (R41). -/
def execTierDeadline (c : Slot) (t : TierStep) : State → Host.Outcome State Fault Refusal :=
  event fun s =>
    match s.callAt c with
    | some k =>
      if k.state ≠ .connected ∧ k.arrival + 10 * tierTime (s.groupRec k.group) t ≤ s.now ∧ k.tier < raisedTier t then
        tierChange c (raisedTier t) s
      else s
    | none => s

/-- A max-wait deadline that is reached: divert pending is set, and a WAITING call's divert is due (R43). -/
def maxWaitReached (c : Slot) (k : Call) (s : State) : State :=
  let s := s.alterCall c fun k => { k with divertPending := true }
  if k.state = .waiting then divertDue c s else s

/-- MAX_WAIT_DEADLINE (R43, R44). -/
def execMaxWaitDeadline (c : Slot) : State → Host.Outcome State Fault Refusal :=
  event fun s =>
    match s.callAt c with
    | some k =>
      let w := (s.groupRec k.group).maxWait
      if 0 < w ∧ k.state ≠ .connected ∧ k.divertPending = false ∧ k.arrival + 10 * w ≤ s.now then maxWaitReached c k s
      else s
    | none => s

/-- DIVERT: a due divert is taken with a free entry, in its turn (R44, R169; log entry 30). -/
def execDivert (c : Slot) : State → Host.Outcome State Fault Refusal :=
  event fun s =>
    match s.callAt c with
    | some k =>
      if k.state = .waiting ∧ k.divertPending = true ∧ 0 < s.free ∧ s.mayServe (.divert c) then takeDivert c (s.unawait (.divert c)) else s
    | none => s

/-- OFFER_DEADLINE: the mark is cleared with the peer named (R152). -/
def execOfferDeadline (c : Slot) : State → Host.Outcome State Fault Refusal :=
  event fun s =>
    match (s.callAt c).map Call.state with
    | some (.offered p d _) => if d ≤ s.now then clearMark c (some p) false id s else s
    | some .waiting | some (.alertingLocal _) | some (.alertingRemote ..) | some .connected | none => s

/-- ANSWER_WATCH_EXPIRY: taken at once with a free entry, else it waits for room (R158, R169). One that waits
already keeps its place (log entry 30). -/
def execAnswerWatchExpiry (c : Slot) : State → Host.Outcome State Fault Refusal :=
  event fun s =>
    match (s.callAt c).map Call.state with
    | some (.alertingRemote _ _ d) =>
      if d ≤ s.now then
        if 0 < s.free && s.mayServe (.watch c) then takeWatch c (s.unawait (.watch c)) else s.await (.watch c)
      else s
    | some .waiting | some (.offered ..) | some (.alertingLocal _) | some .connected | none => s

/-! ### Passes and treatments (R77, R84, R98) -/

/-- RETRY_PASS (R76, R77). -/
def execRetryPass : State → Host.Outcome State Fault Refusal := event retryIfRoom

/-- STEP_DEADLINE (R84, R86, R88, R89, R92). -/
def execStepDeadline (c : Slot) : State → Host.Outcome State Fault Refusal :=
  event fun s =>
    match s.contextAt c with
    | some x => if reached s.now x.deadline then endDeadline c s else s
    | none => s

/-- TREATMENT_RESUME (R98). -/
def execTreatmentResume : State → Host.Outcome State Fault Refusal := event resumeAll

/-! ### Station deadlines (R130, R131, R137, R145, R175) -/

/-- Entry to ACTIVE: the transmitter chooses, and the pass of R78 is made (R130). -/
def enterActive (s : State) : State := activePass (s.modBus fun b => { b with station := .active }).choose

/-- JOIN_DEADLINE (R130, R78). -/
def execJoinDeadline : State → Host.Outcome State Fault Refusal :=
  event fun s =>
    match s.bus.station with
    | .joining d => if d ≤ s.now then enterActive s else s
    | .starting | .unconfigured | .active | .busFault _ | .duplicateId => s

/-- A probe deadline that is reached: a probe is taken into an empty slot, and the deadline set again (R131). -/
def probe (s : State) : State :=
  (if s.bus.slot.isNone then placeSummary s else s).modBus fun b => { b with station := .busFault (s.now + s.conf.slow) }

/-- PROBE_DEADLINE (R131). -/
def execProbeDeadline : State → Host.Outcome State Fault Refusal :=
  event fun s =>
    match s.bus.station with
    | .busFault d => if d ≤ s.now then probe s else s
    | .starting | .unconfigured | .joining _ | .active | .duplicateId => s

/-- ABSENCE_DEADLINE (R137). -/
def execAbsenceDeadline (p : Station) : State → Host.Outcome State Fault Refusal :=
  event fun s =>
    match s.peers.rows[p] with
    | some row => if row.absence ≤ s.now then losePeer s p else s
    | none => s

/-- HOLD_DEADLINE: step 1 of the ladder (R145). -/
def execHoldDeadline : State → Host.Outcome State Fault Refusal :=
  event fun s => if s.building then downshift s else s

/-- PERIOD_DEADLINE: step 3 of the ladder, behind a downshift that is due too (R145). -/
def execPeriodDeadline : State → Host.Outcome State Fault Refusal :=
  event fun s => if s.building then periodStep (downshift s) else s

/-- ATTENTION_PULSE_END: the line rests high again (R175). -/
def execAttentionPulseEnd : State → Host.Outcome State Fault Refusal :=
  event fun s => s.modPort fun p => { p with pulse := false }

end Sys2Proof.Machine
end

