-- ==== Sys2Proof/Machine/FrameEvents.lean ====
section
/-! DEFINITION. The meanings of the received frames (R123, R124). Each row gives a frame field by field; a
field out of its range makes it a check error. -/

namespace Sys2Proof.Machine

/-- FRAME_CHECK_ERROR: the run of bytes the receiver took, judged by the tests of R123. No byte is no frame. -/
def execFrameCheckError (bytes : List Byte) : State → Host.Outcome State Fault Refusal :=
  event fun s => if bytes.isEmpty then s else receive (receiveBytes bytes) s

/-- SUMMARY (R136). -/
def execSummary (h : Header) (es : List RawEntry) : State → Host.Outcome State Fault Refusal :=
  event (receive (frameIn h (summaryIn es)))

/-- OFFER (R153). -/
def execOffer (h : Header) (r : RawRef) (g pr t : Nat) (tag : Half) (age : Nat) : State → Host.Outcome State Fault Refusal :=
  event (receive (frameIn h (offerIn r g pr t tag age)))

/-- CLAIM (R161). -/
def execClaim (h : Header) (g st p score : Nat) : State → Host.Outcome State Fault Refusal :=
  event (receive (frameIn h (claimIn g st p score)))

/-- ACCEPT (R150). -/
def execAccept (h : Header) (r : RawRef) (p score : Nat) : State → Host.Outcome State Fault Refusal :=
  event (receive (frameIn h (acceptIn r p score)))

/-- DECLINE (R151). -/
def execDecline (h : Header) (r : RawRef) (reason : Nat) : State → Host.Outcome State Fault Refusal :=
  event (receive (frameIn h (declineIn r reason)))

/-- CANCEL (R159). -/
def execCancel (h : Header) (r : RawRef) : State → Host.Outcome State Fault Refusal :=
  event (receive (frameIn h (cancelIn r)))

/-- ANSWERED (R156). -/
def execAnswered (h : Header) (r : RawRef) (p : Nat) : State → Host.Outcome State Fault Refusal :=
  event (receive (frameIn h (answeredIn r p)))

/-- RETURNED (R157). -/
def execReturned (h : Header) (r : RawRef) (p : Nat) : State → Host.Outcome State Fault Refusal :=
  event (receive (frameIn h (returnedIn r p)))

/-- NOCALL (R162). -/
def execNocall (h : Header) (g p : Nat) : State → Host.Outcome State Fault Refusal :=
  event (receive (frameIn h (nocallIn g p)))

end Sys2Proof.Machine
end

