-- ==== Sys2Proof/Machine/Image.lean ====
section
/-! DEFINITION. The configuration image (Chapter 11): its byte layout, the structural checks of R178, the
clamps of R179 and the configuration they leave. -/

namespace Sys2Proof.Machine

/-- A byte of the image, as a number. -/
def u8 (img : List Byte) (a : Nat) : Nat := ((img.drop a).headD 0).toNat

/-- A two-byte and a three-byte field, most significant byte first (R176). -/
def u16 (img : List Byte) (a : Nat) : Nat := 256 * u8 img a + u8 img (a + 1)
def u24 (img : List Byte) (a : Nat) : Nat := 65536 * u8 img a + u16 img (a + 1)

/-- The memory size in bytes, from the header's units of 64 KiB (R176). -/
def memoryBytes (img : List Byte) : Nat := 65536 * (if u8 img 6 = 0 then 256 else u8 img 6)

/-- The image length of the header. -/
def imageLength (img : List Byte) : Nat := u16 img 2

/-! ### Raw tables (11.5) -/

/-- The address of a group record. -/
def groupAt (g : Nat) : Nat := 31 + 35 * g

/-- Whether a group record is defined. -/
def groupDefined (img : List Byte) (g : Nat) : Bool := u8 img (groupAt g) ≠ 0

/-- First step, length and loop index of a list (11.5). -/
def listFirst (img : List Byte) (l : Nat) : Nat := u8 img (591 + 4 * l)
def listLength (img : List Byte) (l : Nat) : Nat := u16 img (592 + 4 * l)
def listLoop (img : List Byte) (l : Nat) : Nat := u8 img (594 + 4 * l)

/-- Whether a list number names a defined list: a length of 0 means it is not (R176). -/
def listDefined (img : List Byte) (l : Nat) : Bool := l < 32 && listLength img l ≠ 0

/-- The step count (11.5). -/
def stepCount (img : List Byte) : Nat := u16 img 719

/-- The kind of a step, and its field bytes (11.5). -/
def stepKind (img : List Byte) (i : Nat) : Nat := u8 img (721 + 7 * i)
def stepField (img : List Byte) (i k : Nat) : Nat := u8 img (722 + 7 * i + k)

/-- Start and length of a directory entry; a length of 0 means it is absent (R176). -/
def clipStartAt (img : List Byte) (c : Nat) : Nat := u24 img (2513 + 6 * c)
def clipLengthAt (img : List Byte) (c : Nat) : Nat := u24 img (2516 + 6 * c)
def clipPresent (img : List Byte) (c : Nat) : Bool := c < 128 && clipLengthAt img c ≠ 0

/-- The clip count and clips of a bed's playlist (11.5). -/
def playCount (img : List Byte) (b : Nat) : Nat := u8 img (3281 + 9 * b)
def playClip (img : List Byte) (b i : Nat) : Nat := u8 img (3282 + 9 * b + i)

/-! ### Ranges (R179) -/

/-- Set a number to the nearer bound of its range. -/
def clampTo (lo hi n : Nat) : Nat := if n < lo then lo else if hi < n then hi else n

/-- The two-byte numeric fields of the station block at addresses from 8, each with its range (R179). -/
def stationFields (img : List Byte) : List (Nat × Nat × Nat) :=
  [(0, 8191, u16 img 10), (150, 1800, u16 img 12), (2, 50, u8 img 14), (2, 50, u8 img 15), (10, 100, u8 img 16),
   (1, 600, u16 img 17), (1, 600, u16 img 19), (1, 600, u16 img 21), (1, 6000, u16 img 23), (1, 6000, u16 img 25),
   (0, 1, u8 img 27), (1, 4096, u16 img 29)]

/-- The numeric fields of a group record, each with its range (R179). -/
def groupFields (img : List Byte) (g : Nat) : List (Nat × Nat × Nat) :=
  let a := groupAt g
  [(0, 600, u16 img (a + 1)), (0, 300, u16 img (a + 3)), (0, 1800, u16 img (a + 5)), (5, 60, u8 img (a + 8)),
   (0, 3600, u16 img (a + 9)), (0, 3600, u16 img (a + 11)), (0, 3600, u16 img (a + 13)), (0, 15, u8 img (a + 16)),
   (0, 15, u8 img (a + 17)), (1, 3600, u16 img (a + 18))]

/-- The numeric fields of a step, each with its range (R179). -/
def stepFields (img : List Byte) (i : Nat) : List (Nat × Nat × Nat) :=
  match stepKind img i with
  | 1 => [(1, 255, stepField img i 1)]
  | 4 => [(1, 255, stepField img i 0)]
  | 5 => [(0, 127, stepField img i 0)]
  | 6 => [(1, 4, stepField img i 1)]
  | _ => []

/-- A field's value after clamping. -/
def clamped (f : Nat × Nat × Nat) : Nat := clampTo f.1 f.2.1 f.2.2

/-- Whether a field lies outside its range. -/
def outside (f : Nat × Nat × Nat) : Bool := f.2.2 < f.1 || f.2.1 < f.2.2

/-- The field at an index of one of the lists above, clamped. -/
def fieldOf (fs : List (Nat × Nat × Nat)) (i : Nat) : Nat := clamped (fs.getD i (0, 0, 0))

/-- T1, T2 and W after the order clamps of a group record (R179). -/
def t1Of (img : List Byte) (g : Nat) : Nat := fieldOf (groupFields img g) 4
def t2Of (img : List Byte) (g : Nat) : Nat := max (t1Of img g) (fieldOf (groupFields img g) 5)
def maxWaitOf (img : List Byte) (g : Nat) : Nat :=
  let w := fieldOf (groupFields img g) 6
  if w = 0 then 0 else max (t2Of img g) w

/-- The three periods after the order clamps of the station block (R179, R142). -/
def briskOf (img : List Byte) : Nat := fieldOf (stationFields img) 5
def easyOf (img : List Byte) : Nat := max (briskOf img) (fieldOf (stationFields img) 6)
def slowOf (img : List Byte) : Nat := max (easyOf img) (fieldOf (stationFields img) 7)

/-- How many order clamps are made (R179). -/
def orderClamps (img : List Byte) : Nat :=
  ((List.range 16).map fun g =>
      (if fieldOf (groupFields img g) 5 < t1Of img g then 1 else 0) +
      (if 0 < fieldOf (groupFields img g) 6 ∧ fieldOf (groupFields img g) 6 < t2Of img g then 1 else 0)).sum +
    (if fieldOf (stationFields img) 6 < briskOf img then 1 else 0) +
    (if fieldOf (stationFields img) 7 < easyOf img then 1 else 0)

/-- Every numeric field the load clamps: the station block, the sixteen group records, and the steps of the
treatment table (R179; log entry 20). -/
def numericFields (img : List Byte) : List (Nat × Nat × Nat) :=
  stationFields img ++ (List.range 16).flatMap (groupFields img) ++ (List.range (stepCount img)).flatMap (stepFields img)

/-- The clamped-values counter at the end of a load (R179). -/
def clampCount (img : List Byte) : Nat :=
  saturate 65535 ((numericFields img).countP outside + orderClamps img)

/-! ### Structural checks (R178) -/

/-- The steps inside defined lists, each as its list and its index in it (R178: checks on steps apply to
these; log entry 21). -/
def listedSteps (img : List Byte) : List (Nat × Nat) :=
  ((List.range 32).filter (listDefined img)).flatMap fun l => (List.range (listLength img l)).map fun i => (l, i)

/-- The step number of an index of a list. -/
def stepNo (img : List Byte) (l i : Nat) : Nat := listFirst img l + i

/-- Code 6. -/
def listFault (img : List Byte) (l : Nat) : Bool :=
  listDefined img l && (stepCount img < listFirst img l + listLength img l || listLength img l ≤ listLoop img l)

/-- Code 7. -/
def kindFault (img : List Byte) (i : Nat) : Bool :=
  let k := stepKind img i
  k < 1 || 8 < k || (k = 3 && 1 < stepField img i 0) || (k = 6 && 4 < stepField img i 0)

/-- The number of targets a BRANCH has, after n is clamped (R178 code 14). -/
def branchCount (img : List Byte) (i : Nat) : Nat := clampTo 1 4 (stepField img i 1)

/-- Code 8 for one step: a NEST of a list that is not defined. -/
def nestFault (img : List Byte) (i : Nat) : Bool := stepKind img i = 7 && !listDefined img (stepField img i 0)

/-- Code 9 for one group. -/
def overflowFault (img : List Byte) (g : Nat) : Bool :=
  let o := u8 img (groupAt g + 15)
  groupDefined img g && o ≠ 255 && (16 ≤ o || !groupDefined img o || o = g)

/-- Code 10 for one step: a clip that is absent or above 127. -/
def stepClipFault (img : List Byte) (i : Nat) : Bool :=
  (stepKind img i = 2 && !clipPresent img (stepField img i 0)) ||
    (stepKind img i = 3 && (List.range 10).any fun d => !clipPresent img (stepField img i 1 + d))

/-- Code 10 for one playlist. -/
def playClipFault (img : List Byte) (b : Nat) : Bool :=
  (List.range (min 8 (playCount img b))).any fun i => !clipPresent img (playClip img b i)

/-- Code 13 for one directory entry, absent or present (R178). -/
def clipFault (img : List Byte) (c : Nat) : Bool := memoryBytes img < clipStartAt img c + clipLengthAt img c

/-- Code 14 for one step of a list. -/
def targetFault (img : List Byte) (l i : Nat) : Bool :=
  let n := stepNo img l i
  stepKind img n = 6 &&
    (List.range (branchCount img n)).any fun t => stepField img n (2 + t) ≤ i || listLength img l ≤ stepField img n (2 + t)

/-- Whether a defined list contains a NEST. -/
def containsNest (img : List Byte) (l : Nat) : Bool :=
  (List.range (listLength img l)).any fun i => stepKind img (stepNo img l i) = 7

/-- Code 15 for one step. -/
def doubleNestFault (img : List Byte) (i : Nat) : Bool :=
  stepKind img i = 7 && listDefined img (stepField img i 0) && containsNest img (stepField img i 0)

/-- Code 16 for one step of a list. -/
def repeatFault (img : List Byte) (l i : Nat) : Bool :=
  stepKind img (stepNo img l i) = 5 &&
    (i + 1 = listLength img l || !([1, 2, 3, 4, 7].contains (stepKind img (stepNo img l (i + 1)))))

/-- Code 17 for one group record. -/
def thresholdFault (img : List Byte) (g : Nat) : Bool :=
  let a := groupAt g
  !(u16 img (a + 20) < u16 img (a + 22) && u16 img (a + 22) < u16 img (a + 24) &&
    u16 img (a + 26) < u16 img (a + 28) && u16 img (a + 28) < u16 img (a + 30))

/-- Codes 1 and 2, checked when the header has arrived (R177). -/
def headerFault (img : List Byte) : Option Nat :=
  if u16 img 0 ≠ 0x5344 then some 1
  else if imageLength img < 3317 || memoryBytes img < imageLength img then some 2
  else none

/-- Codes 4 to 17, the lowest that fails (R178). -/
def structuralFault (img : List Byte) : Option Nat :=
  let steps := listedSteps img
  let groups := List.range 16
  if 14 < u8 img 7 then some 4
  else if 256 < stepCount img then some 5
  else if (List.range 32).any (listFault img) then some 6
  else if (List.range (stepCount img)).any (kindFault img) then some 7
  else if groups.any (fun g => groupDefined img g && !listDefined img (u8 img (groupAt g + 32)))
      || steps.any (fun p => nestFault img (stepNo img p.1 p.2)) then some 8
  else if groups.any (overflowFault img) then some 9
  else if steps.any (fun p => stepClipFault img (stepNo img p.1 p.2)) || (List.range 4).any (playClipFault img) then some 10
  else if steps.any (fun p => stepKind img (stepNo img p.1 p.2) = 1 && 3 < stepField img (stepNo img p.1 p.2) 0)
      || groups.any (fun g => groupDefined img g && 3 < u8 img (groupAt g + 33)) then some 11
  else if (List.range 4).any (fun b => playCount img b = 0 || 8 < playCount img b) then some 12
  else if (List.range 128).any (clipFault img) then some 13
  else if steps.any (fun p => targetFault img p.1 p.2) then some 14
  else if steps.any (fun p => doubleNestFault img (stepNo img p.1 p.2)) then some 15
  else if steps.any (fun p => repeatFault img p.1 p.2) then some 16
  else if groups.any (thresholdFault img) then some 17
  else none

/-! ### The configuration a load leaves (R180) -/

/-- A group record of the image (R176, R179). -/
def groupOf (img : List Byte) (g : Nat) : GroupRec :=
  let a := groupAt g
  let f := fieldOf (groupFields img g)
  { defined := groupDefined img g
    wrapBudget := f 0
    extension := f 1
    graceLimit := f 2
    autoReady := u8 img (a + 7) ≠ 0
    alertTime := f 3
    t1 := t1Of img g
    t2 := t2Of img g
    maxWait := maxWaitOf img g
    overflow := if h : u8 img (a + 15) < 16 then some ⟨u8 img (a + 15), h⟩ else none
    wIdle := f 7
    wOcc := f 8
    initialAht := f 9
    ewtAt := (u16 img (a + 20), u16 img (a + 22), u16 img (a + 24))
    posAt := (u16 img (a + 26), u16 img (a + 28), u16 img (a + 30))
    treatment := u8 img (a + 32)
    fallback := Fin.ofNat 4 (u8 img (a + 33))
    divertCode := BitVec.ofNat 8 (u8 img (a + 34)) }

/-- The selector of a BRANCH (11.5). -/
def branchOnOf : Nat → BranchOn
  | 0 => .positionBucket
  | 1 => .ewtBucket
  | 2 => .tier
  | 3 => .priority
  | _ => .visit

/-- A step of the image, with its numeric field clamped (11.5, R179). Kinds other than 1..7 are END: the
load has refused any but 8 (code 7). -/
def stepOf (img : List Byte) (i : Nat) : TreatStep :=
  let field := stepField img i
  let number := fieldOf (stepFields img i) 0
  match stepKind img i with
  | 1 => .bed (Fin.ofNat 4 (field 0)) number
  | 2 => .say (field 0)
  | 3 => .sayValue (if field 0 = 0 then .position else .ewtMinutes) (field 1)
  | 4 => .silence number
  | 5 => .repeatNext number
  | 6 => .branch (branchOnOf (field 0)) ((List.range number).map fun t => field (2 + t))
  | 7 => .nest (field 0)
  | _ => .endList

/-- A list of the image (R79, R176). -/
def listOf (img : List Byte) (l : Nat) : Option TreatList :=
  if listDefined img l then
    some ⟨(List.range (listLength img l)).map fun i => stepOf img (stepNo img l i), listLoop img l⟩
  else none

/-- A directory entry of the image (R103, R176). -/
def clipOf (img : List Byte) (c : Nat) : Option Clip :=
  if clipPresent img c then some ⟨clipStartAt img c, clipLengthAt img c⟩ else none

/-- The configuration of an image that has passed the checks (R180). -/
def configurationOf (img : List Byte) : Configuration :=
  let f := fieldOf (stationFields img)
  { seed := BitVec.ofNat 16 (u16 img 8)
    margin := f 0
    windowHalf := f 1
    offerTimeout := f 2
    claimTimeout := f 3
    joinInterval := f 4
    brisk := briskOf img
    easy := easyOf img
    slow := slowOf img
    briskHold := f 8
    easyHold := f 9
    pulseMode := f 10 = 1
    silence := BitVec.ofNat 8 (u8 img 28)
    divisor := f 11
    groups := Vector.ofFn fun g => groupOf img g.val
    lists := Vector.ofFn fun l => listOf img l.val
    directory := Vector.ofFn fun c => clipOf img c.val
    playlists := Vector.ofFn fun b => (List.range (playCount img b.val)).map (playClip img b.val) }

end Sys2Proof.Machine
end

