-- ==== Sys2Proof/Machine/Load.lean ====
section
/-! DEFINITION. The configuration load (R177): its reads, the running sum, its end with a fault or with the
hand-over of R180. -/

namespace Sys2Proof.Machine

/-- How many bytes the read now in flight covers: addresses 0..7 first, then up to 32 bytes at a time to the
image length (R177; log entry 19). -/
def readLength (got : List Byte) : Nat :=
  if got.length < 8 then 8 - got.length else min readSize (imageLength got - got.length)

/-- Bytes added to the running sum of 16-bit words, the byte at an even address being the high one; an odd
image's last byte is thereby the high byte of a word whose low byte is 0 (R176). -/
def addToSum : (addr sum : Nat) → List Byte → Nat
  | _, sum, [] => sum
  | addr, sum, b :: rest => addToSum (addr + 1) ((sum + (if addr % 2 = 0 then 256 * b.toNat else b.toNat)) % 65536) rest

/-- The load ends with a structural fault (R129, R172, R177). -/
def loadFault (code : Nat) (s : State) : State :=
  ((s.modLoad fun l => { l with reading := none }).modBus fun b => { b with station := .unconfigured }).modPort
    fun p => { p with loadFault := some code }

/-- The load ends without a fault: every block takes its share within this event (R180). -/
def loadEnd (img : List Byte) (s : State) : State :=
  let cfg := configurationOf img
  let me : Station := Fin.ofNat 15 (u8 img 7)
  let held : State :=
    { s with
      cfg := some cfg
      load := { reading := none, clamped := clampCount img }
      aht := Vector.ofFn fun g => cfg.groups[g].initialAht
      time := { s.time with ds := 0, running := true, divisor := cfg.divisor }
      bus := { s.bus with id := some me, rng := some (seedRandom cfg.seed me) } }
  beginDrive (startBrisk (placeSummary (enterJoining held)))

/-- The bytes of the read in flight have arrived (R177). -/
def loadBytes (bytes : List Byte) (s : State) : State :=
  match s.load.reading with
  | none => s
  | some (got, sum) =>
    let new := bytes.take (readLength got)
    let all := got ++ new
    let total := addToSum got.length sum new
    let reading := s.modLoad fun l => { l with reading := some (all, total) }
    if all.length = 8 then
      match headerFault all with
      | some code => loadFault code s
      | none => reading
    else if all.length = imageLength all then
      if total ≠ 0 then loadFault 3 s
      else
        match structuralFault all with
        | some code => loadFault code s
        | none => loadEnd all s
    else reading

end Sys2Proof.Machine
end

