-- ==== Sys2Proof/Machine/Resets.lean ====
section
/-! DEFINITION. The meanings of the two resets and of the configuration load's reads. -/

namespace Sys2Proof.Machine

/-- POWER_ON (R181, R113). -/
def execPowerOn (sync : Bool) : State → Host.Outcome State Fault Refusal := event (resetBlock sync)

/-- Whether the open transaction is a RESTART event. -/
def Transaction.isRestart : Transaction → Bool
  | .restart _ => true
  | .idle | .take .. | .report .. | .attention .. | .changes .. => false

/-- `n` bytes of the outcome are wholly clocked out, TAKEN and then zero bytes (R165, R166). Once the outcome is out the
rise of select is the reset, which will find the sync input as `sync` says. -/
def restartBytes (n : Nat) (sync : Bool) (s : State) : State :=
  if n = 0 then s else (s.emit (clockedOut n [OutcomeCode.taken.byte])).inTransaction (.restart (some sync))

/-- A RESTART, whole or in parts (R165, R166). -/
def restartEvent (c : RestartClocking) (s : State) : State :=
  match c with
  | .through n sync => selectRises (restartBytes n sync (opened (fun _ => .restart none) s))
  | .opens => opened (fun _ => .restart none) s
  | .firstBit => s
  | .lastBit sync => if s.port.transaction.isRestart then restartBytes 1 sync s else s

/-- RESTART: TAKEN in every station state; the reset comes at the select rise after the outcome byte is wholly
clocked out, and a rise before that aborts it (R166). -/
def execRestart (c : RestartClocking) : State → Host.Outcome State Fault Refusal := event (restartEvent c)

/-- LOAD_READ_ARRIVES (R177, R178, R179, R180). -/
def execLoadReadArrives (bytes : Vector Byte 32) : State → Host.Outcome State Fault Refusal :=
  event (loadBytes bytes.toList)

end Sys2Proof.Machine
end

