-- ==== Sys2Proof/Machine/TimeEvents.lean ====
section
/-! DEFINITION. The meanings of the Timebase's events (R113 to R115), of the frames of the streams (R110)
and of their reads (R108). -/

namespace Sys2Proof.Machine

/-! ### Frames (R113 to R115) -/

/-- A frame is taken: the frame count adds 1, and at 800 it returns to 0 and, while running, declares a
decisecond (R113). The streams' events of the frame come after it (R110). -/
def takeFrameCount (s : State) : State :=
  beginDrive <| (s.modTime fun t =>
      if t.frames + 1 = 800 then { t with frames := 0, dsDue := if t.running then t.dsDue + 1 else t.dsDue }
      else { t with frames := t.frames + 1 }).modClips fun c => { c with frameCursor := 0 }

/-- Frame sync returns: sync present is set and that sync is the next frame (R115). -/
def syncReturn (s : State) : State := takeFrameCount (s.modTime fun t => { t with syncPresent := true })

/-- HIGHWAY_FRAME (R113); the first sync seen during clock loss is also its return (R115). -/
def execHighwayFrame : State → Host.Outcome State Fault Refusal :=
  event fun s => if s.time.syncPresent then takeFrameCount s else syncReturn s

/-- FALLBACK_FRAME: frames come from the internal oscillator while sync is absent (R114). DESIGN CHOICE: also between
a reset that finds no sync and the loss declared 2 ms later, where the spec says nothing of them; unsafe, log entry 41. -/
def execFallbackFrame : State → Host.Outcome State Fault Refusal :=
  event fun s => if s.time.syncPresent then s else takeFrameCount s

/-- SYNC_LOST: sync present is cleared, the clock-loss flag set, and the highway no longer driven (R114). -/
def execSyncLost : State → Host.Outcome State Fault Refusal :=
  event fun s => beginDrive (s.modTime fun t => { t with syncPresent := false, clockLoss := true })

/-- SYNC_RETURNS (R115). -/
def execSyncReturns : State → Host.Outcome State Fault Refusal := event syncReturn

/-! ### Deciseconds and seconds (R113, R145, R21, R22) -/

/-- Station time advances by one decisecond, and a multiple of 10 declares a second boundary (R113). -/
def Timebase.advance (t : Timebase) : Timebase :=
  if t.ds < lastDecisecond then
    { t with ds := t.ds + 1, dsDue := t.dsDue - 1, secondsDue := if (t.ds + 1) % 10 = 0 then t.secondsDue + 1 else t.secondsDue }
  else { t with dsDue := t.dsDue - 1 }

/-- DECISECOND: station time advances and the Summary Builder takes its steps (R113, R145). -/
def execDecisecond : State → Host.Outcome State Fault Refusal :=
  event fun s => if 0 < s.time.dsDue then ladder (s.modTime Timebase.advance) else s

/-- A declared second boundary is taken (R21, R22, R113). -/
def takeSecond (s : State) : State := secondEvent (s.modTime fun t => { t with secondsDue := t.secondsDue - 1 })

/-- SECOND_BOUNDARY (R21, R113). -/
def execSecondBoundary : State → Host.Outcome State Fault Refusal :=
  event fun s => if 0 < s.time.secondsDue then takeSecond s else s

/-- WINDOW_HALF_BOUNDARY: the second boundary that brings the window-half count to H (R22, R113). -/
def execWindowHalfBoundary : State → Host.Outcome State Fault Refusal :=
  event fun s =>
    if 0 < s.time.secondsDue ∧ s.time.windowCount + 1 = s.conf.windowHalf then takeSecond s else s

/-! ### Streams (R108, R110) -/

/-- The voice of a voice stream (R82). -/
def streamVoice (n : StreamId) : Option Voice :=
  if h : 4 ≤ n.val then some ⟨n.val - 4, by omega⟩ else none

/-- A stream's output in the present frame, with the clip-finished it raises (R110). -/
def streamOutput (n : StreamId) (s : State) : State :=
  let out := outputSample n (s.modClips fun c => { c with frameCursor := n.val + 1 })
  match out.2, streamVoice n with
  | true, some v => clipFinished v out.1
  | _, _ => out.1

/-- STREAM_FRAME_OUTPUT: the streams of a frame are taken in ascending order, each once (R110). -/
def execStreamFrameOutput (n : StreamId) : State → Host.Outcome State Fault Refusal :=
  event fun s => if s.clips.frameCursor ≤ n.val then streamOutput n s else s

/-- READ_ARRIVES (R108). -/
def execReadArrives (bytes : Vector Byte 32) : State → Host.Outcome State Fault Refusal :=
  event (arriveRead bytes.toList)

end Sys2Proof.Machine
end

