-- ==== Sys2Proof/Machine/Transactions.lean ====
section
/-! DEFINITION. The meanings of the port's other transactions (10.1 to 10.4). -/

namespace Sys2Proof.Machine

/-! ### Which transaction is open -/

/-- Whether the open transaction is a TAKE. -/
def Transaction.isTake : Transaction → Bool
  | .take .. => true
  | .idle | .report .. | .attention .. | .changes .. | .restart _ => false

/-- Whether the open transaction is a REPORT about this subject. -/
def Transaction.isReport (about : ReportOf) : Transaction → Bool
  | .report a _ _ => a = about
  | .idle | .take .. | .attention .. | .changes .. | .restart _ => false

/-- Whether the open transaction is an ATTENTION. -/
def Transaction.isAttention : Transaction → Bool
  | .attention .. => true
  | .idle | .take .. | .report .. | .changes .. | .restart _ => false

/-- Whether the open transaction is a CHANGES. -/
def Transaction.isChanges : Transaction → Bool
  | .changes .. => true
  | .idle | .take .. | .report .. | .attention .. | .restart _ => false

/-! ### TAKE (R168) -/

/-- TAKE: the directive at the head when the command byte is clocked in (R168). -/
def execTake (c : Clocking) : State → Host.Outcome State Fault Refusal :=
  event (clocked (fun s => .take s.port.directives.head? false) Transaction.isTake c)

/-! ### REPORT (R170, R171) -/

/-- The subject of a REPORT AGENT: unknown above position 47 (R170). -/
def agentSubject (position : Nat) : ReportOf := ((inRange 48 position).map .agent).getD .unknown

/-- The subject of a REPORT GROUP: unknown above group 15 (R170). -/
def groupSubject (group : Nat) : ReportOf := ((inRange 16 group).map .group).getD .unknown

/-- A REPORT from a start field (R170). -/
def reportFrom (about : ReportOf) (start : Nat) (c : Clocking) : State → State :=
  clocked (fun _ => .report about start none) (Transaction.isReport about) c

/-- REPORT AGENT (R170, R171, R24). -/
def execReportAgent (position start : Nat) (c : Clocking) : State → Host.Outcome State Fault Refusal :=
  event (reportFrom (agentSubject position) start c)

/-- REPORT GROUP (R170, R171). -/
def execReportGroup (group start : Nat) (c : Clocking) : State → Host.Outcome State Fault Refusal :=
  event (reportFrom (groupSubject group) start c)

/-- REPORT STATION (R170, R171). -/
def execReportStation (start : Nat) (c : Clocking) : State → Host.Outcome State Fault Refusal :=
  event (reportFrom .station start c)

/-- REPORT of a kind that is none of the three: zero bytes for every field, nothing cleared (R170). -/
def execReportUnknownKind (_kind _subject start : Nat) (c : Clocking) : State → Host.Outcome State Fault Refusal :=
  event (reportFrom .unknown start c)

/-! ### ATTENTION and CHANGES (R173, R174) -/

/-- ATTENTION (R173). -/
def execAttention (c : Clocking) : State → Host.Outcome State Fault Refusal :=
  event (clocked (fun _ => .attention none false) Transaction.isAttention c)

/-- CHANGES: the marked positions when the command byte is clocked in (R174). -/
def execChanges (c : Clocking) : State → Host.Outcome State Fault Refusal :=
  event (clocked (fun s => .changes (marked s) 0) Transaction.isChanges c)

/-! ### Unknown commands and aborts (R165) -/

/-- An unknown transaction: zero bytes until select rises, and nothing is taken from it (R165). -/
def execUnknownCommand (_command bytes : Nat) : State → Host.Outcome State Fault Refusal :=
  event fun s => ((selectRises s).inTransaction .idle).drive (List.replicate bytes 0)

/-- TRANSACTION_ABORT: select rises on whatever is open (R165, R166). -/
def execTransactionAbort : State → Host.Outcome State Fault Refusal := event selectRises

end Sys2Proof.Machine
end

