-- ==== Sys2Proof/Machine/TrunkEvents.lean ====
section
/-! DEFINITION. The three trunk events (2.3). -/

namespace Sys2Proof.Machine

/-! ### TRUNK_SEIZE (R31, R32) -/

/-- The record a TRUNK_SEIZE gives its slot, with the tier of R32 step 2. -/
def seizedCall (s : State) (t : Trunk) (g : Group) (p : Fin 4) (tag : Half) : Call where
  trunk := t
  group := g
  priority := p
  tag := tag
  arrival := s.now
  state := .waiting
  tier := if (s.groupRec g).t1 = 0 then (if (s.groupRec g).t2 = 0 then 2 else 1) else 0
  declined := noStations
  divertPending := false
  context := none

/-- A slot is occupied: its generation counts up by one, modulo 16 (R27, R31). -/
def occupy (c : Slot) (k : Call) (s : State) : State :=
  s.alterSlot c fun r => { gen := r.gen + 1, deferred := false, call := some k }

/-- A taken TRUNK_SEIZE: the record, then queue, tier, offered-in, treatment and the one attempt (R31, R32). -/
def seize (c : Slot) (k : Call) (s : State) : State :=
  attemptCall c <| startTreatment c <| countOffered k.group <| joinQueue c <| occupy c k s

/-- The group and priority of a TRUNK_SEIZE in range: a group defined at this station and a class (R30). -/
def seizeFields (s : State) (group priority : Nat) : Option (Group × Fin 4) := do
  let g ← inRange 16 group
  let p ← inRange 4 priority
  if s.defines g then some (g, p) else none

/-- TRUNK_SEIZE after the port has taken its bytes: the checks of R30 in order. -/
def seizeEvent (t : Trunk) (group priority : Nat) (tag : Half) (s : State) : State :=
  if s.outOfService then s.answer .refusedStarting
  else
    match seizeFields s group priority with
    | none => s.answer .refusedRange
    | some (g, p) =>
      match s.byTrunk t with
      | some _ => s.answer .refusedState
      | none =>
        match s.freeSlot with
        | none => s.answer .refusedFull
        | some c => (seize c (seizedCall s t g p tag) s).drive [OutcomeCode.taken.byte, lowByte c.val]

/-- TRUNK_SEIZE (R30, R31, R32). -/
def execTrunkSeize (t : Trunk) (group priority : Nat) (tag : LastField Half) : State → Host.Outcome State Fault Refusal :=
  event (shelfEvent tag.clocked (seizeEvent t group priority tag.value))

/-! ### TRUNK_ANSWERED (R33) -/

/-- A trunk-side answer: applied when the record is ALERTING and bound-local to the reference (R14). -/
def trunkSideAnswer (c : Slot) (p : Position) (s : State) : State :=
  match (s.agent p).state with
  | .alerting _ b _ => if b.isLocal ∧ s.refOf c = some b.ref then talk p b s else s
  | .loggedOut | .notReady _ | .ready _ | .claiming _ | .talking _ | .wrap .. | .wrapOver .. => s

/-- The effect of TRUNK_ANSWERED on the call in a slot (R33); a RONA that has left the room-wait list lets the next waiter fit
(R169). -/
def answerCall (c : Slot) (k : Call) (s : State) : State :=
  match k.state with
  | .waiting | .offered .. => s.answer .refusedState
  | .alertingLocal p => (serveRoom (connect c (trunkSideAnswer c p s))).answer .taken
  | .alertingRemote .. => (serveRoom (connect c s)).answer .taken
  | .connected => s.answer .taken

/-- TRUNK_ANSWERED after the port has taken its bytes (R30, R33). -/
def answeredEvent (t : Trunk) (s : State) : State :=
  if s.outOfService then s.answer .refusedStarting
  else
    match s.byTrunk t with
    | none => s.answer .refusedState
    | some c =>
      match s.callAt c with
      | some k => answerCall c k s
      | none => s.answer .refusedState

/-- TRUNK_ANSWERED (R30, R33). -/
def execTrunkAnswered (t : LastField Trunk) : State → Host.Outcome State Fault Refusal :=
  event (shelfEvent t.clocked (answeredEvent t.value))

/-! ### TRUNK_RELEASE (R35) -/

/-- What the state of the call requires before the record is freed (R35). -/
def releaseByState (c : Slot) (k : Call) (s : State) : State :=
  match k.state with
  | .waiting | .connected => s
  | .offered p _ _ | .alertingRemote p _ _ =>
    match s.refOf c with
    | some r => s.reply p (.cancel r)
    | none => s
  | .alertingLocal _ =>
    match s.holderOf c with
    | some a => unbind a s
    | none => s

/-- A taken TRUNK_RELEASE: abandoned counts unless the call is CONNECTED; then the record is freed (R35). -/
def releaseCall (c : Slot) (k : Call) (s : State) : State :=
  freeCall c (releaseByState c k (if k.state = .connected then s else countAbandoned k.group s))

/-- Whether the state is ALERTING-local. -/
def CallState.alertsLocally : CallState → Bool
  | .alertingLocal _ => true
  | .waiting | .offered .. | .alertingRemote .. | .connected => false

/-- TRUNK_RELEASE after the port has taken its bytes (R30, R35). -/
def releaseEvent (t : Trunk) (s : State) : State :=
  if s.outOfService then s.answer .refusedStarting
  else
    match s.byTrunk t with
    | none => s.answer .refusedState
    | some c =>
      match s.callAt c with
      | none => s.answer .refusedState
      | some k =>
        if k.state.alertsLocally && s.free = 0 then s.answer .refusedFull
        else (releaseCall c k s).answer .taken

/-- TRUNK_RELEASE (R30, R35). -/
def execTrunkRelease (t : LastField Trunk) : State → Host.Outcome State Fault Refusal :=
  event (shelfEvent t.clocked (releaseEvent t.value))

end Sys2Proof.Machine
end

