-- ==== Sys2Proof/Machine/Dispatch.lean ====
section
/-! DEFINITION. The dispatch: one arm for each command, each one call of that command's meaning. -/

namespace Sys2Proof.Machine

def exec (i : Instr) (s : State) : Host.Outcome State Fault Refusal :=
  match i with
  | .powerOn sync => Sys2Proof.Machine.execPowerOn sync s
  | .restart clocking => Sys2Proof.Machine.execRestart clocking s
  | .loadReadArrives bytes => Sys2Proof.Machine.execLoadReadArrives bytes s
  | .trunkSeize trunk group priority tag => Sys2Proof.Machine.execTrunkSeize trunk group priority tag s
  | .trunkAnswered trunk => Sys2Proof.Machine.execTrunkAnswered trunk s
  | .trunkRelease trunk => Sys2Proof.Machine.execTrunkRelease trunk s
  | .agentLogin position members => Sys2Proof.Machine.execAgentLogin position members s
  | .agentLogout position => Sys2Proof.Machine.execAgentLogout position s
  | .agentReady position => Sys2Proof.Machine.execAgentReady position s
  | .agentNotReady position reason => Sys2Proof.Machine.execAgentNotReady position reason s
  | .agentAnswer position => Sys2Proof.Machine.execAgentAnswer position s
  | .agentClear position => Sys2Proof.Machine.execAgentClear position s
  | .wrapDone position => Sys2Proof.Machine.execWrapDone position s
  | .wrapExtend position => Sys2Proof.Machine.execWrapExtend position s
  | .unknownEventKind kind => Sys2Proof.Machine.execUnknownEventKind kind s
  | .take clocking => Sys2Proof.Machine.execTake clocking s
  | .reportAgent position start clocking => Sys2Proof.Machine.execReportAgent position start clocking s
  | .reportGroup group start clocking => Sys2Proof.Machine.execReportGroup group start clocking s
  | .reportStation start clocking => Sys2Proof.Machine.execReportStation start clocking s
  | .reportUnknownKind kind subject start clocking => Sys2Proof.Machine.execReportUnknownKind kind subject start clocking s
  | .attention clocking => Sys2Proof.Machine.execAttention clocking s
  | .changes clocking => Sys2Proof.Machine.execChanges clocking s
  | .unknownCommand command clocked => Sys2Proof.Machine.execUnknownCommand command clocked s
  | .transactionAbort => Sys2Proof.Machine.execTransactionAbort s
  | .highwayFrame => Sys2Proof.Machine.execHighwayFrame s
  | .fallbackFrame => Sys2Proof.Machine.execFallbackFrame s
  | .decisecond => Sys2Proof.Machine.execDecisecond s
  | .secondBoundary => Sys2Proof.Machine.execSecondBoundary s
  | .windowHalfBoundary => Sys2Proof.Machine.execWindowHalfBoundary s
  | .syncLost => Sys2Proof.Machine.execSyncLost s
  | .syncReturns => Sys2Proof.Machine.execSyncReturns s
  | .streamFrameOutput stream => Sys2Proof.Machine.execStreamFrameOutput stream s
  | .readArrives bytes => Sys2Proof.Machine.execReadArrives bytes s
  | .alertDeadline position => Sys2Proof.Machine.execAlertDeadline position s
  | .rona position => Sys2Proof.Machine.execRona position s
  | .wrapExpiry position => Sys2Proof.Machine.execWrapExpiry position s
  | .graceDeadline position => Sys2Proof.Machine.execGraceDeadline position s
  | .tierDeadline slot tier => Sys2Proof.Machine.execTierDeadline slot tier s
  | .maxWaitDeadline slot => Sys2Proof.Machine.execMaxWaitDeadline slot s
  | .divert slot => Sys2Proof.Machine.execDivert slot s
  | .retryPass => Sys2Proof.Machine.execRetryPass s
  | .stepDeadline slot => Sys2Proof.Machine.execStepDeadline slot s
  | .treatmentResume => Sys2Proof.Machine.execTreatmentResume s
  | .busAttempt slots => Sys2Proof.Machine.execBusAttempt slots s
  | .frameSent => Sys2Proof.Machine.execFrameSent s
  | .collision => Sys2Proof.Machine.execCollision s
  | .frameCheckError bytes => Sys2Proof.Machine.execFrameCheckError bytes s
  | .summary header entries => Sys2Proof.Machine.execSummary header entries s
  | .offer header ref group priority tier tag age => Sys2Proof.Machine.execOffer header ref group priority tier tag age s
  | .claim header group station position score => Sys2Proof.Machine.execClaim header group station position score s
  | .accept header ref position score => Sys2Proof.Machine.execAccept header ref position score s
  | .decline header ref reason => Sys2Proof.Machine.execDecline header ref reason s
  | .cancel header ref => Sys2Proof.Machine.execCancel header ref s
  | .answered header ref position => Sys2Proof.Machine.execAnswered header ref position s
  | .returned header ref position => Sys2Proof.Machine.execReturned header ref position s
  | .nocall header group position => Sys2Proof.Machine.execNocall header group position s
  | .offerDeadline slot => Sys2Proof.Machine.execOfferDeadline slot s
  | .answerWatchExpiry slot => Sys2Proof.Machine.execAnswerWatchExpiry slot s
  | .claimDeadline position => Sys2Proof.Machine.execClaimDeadline position s
  | .joinDeadline => Sys2Proof.Machine.execJoinDeadline s
  | .probeDeadline => Sys2Proof.Machine.execProbeDeadline s
  | .absenceDeadline peer => Sys2Proof.Machine.execAbsenceDeadline peer s
  | .holdDeadline => Sys2Proof.Machine.execHoldDeadline s
  | .periodDeadline => Sys2Proof.Machine.execPeriodDeadline s
  | .attentionPulseEnd => Sys2Proof.Machine.execAttentionPulseEnd s

end Sys2Proof.Machine
end

