-- ==== Sys2Proof/Machine/Line.lean ====
section
/-! DEFINITION. The Shoal bus line: its two levels, the bits of a byte, what this station drives while its attempt is on
the line, and where stations that send at once collide (R117, R119, R120). The commands say when an attempt begins and
how it ends; the bit times themselves are not counted (log entry 28). -/

namespace Sys2Proof.Machine

/-- The two levels of the pair (R117). -/
inductive Level where
  | dominant | recessive
deriving DecidableEq, Repr

/-- The interframe gap and the slot time, in bit times (R117). -/
def gapBits : Nat := 32
def slotBits : Nat := 64

/-! ### Bytes on the line (R117) -/

/-- A data bit: recessive for 1, dominant for 0 (R117). -/
def bitLevel (b : Bool) : Level := if b then .recessive else .dominant

/-- A byte's ten bit times: a dominant start bit, the data bits with the least significant first, a recessive stop bit
(R117). -/
def byteLevels (b : Byte) : List Level :=
  .dominant :: (List.range 8).map (fun i => bitLevel (b.getLsbD i)) ++ [.recessive]

/-- A run of bytes, back to back (R117). -/
def runLevels (bytes : List Byte) : List Level := bytes.flatMap byteLevels

/-- The bit a level stands for. -/
def Level.bit : Level → Bool
  | .recessive => true
  | .dominant => false

/-- The byte whose data bits stand at these levels. -/
def dataByte (bits : List Level) : Byte := bits.foldr (fun l b => (b <<< 1) ||| (if l.bit then 1 else 0)) 0

/-- The bytes a receiver takes from a run of levels that bytes make back to back (R117). DESIGN CHOICE: none when a start or stop
bit is not at its level, or the run ends within a byte, where R117 and R123 are silent; unsafe, log entry 50. -/
def bytesOfLevels : List Level → Option (List Byte)
  | [] => some []
  | .dominant :: b0 :: b1 :: b2 :: b3 :: b4 :: b5 :: b6 :: b7 :: .recessive :: rest =>
    (bytesOfLevels rest).map fun bs => dataByte [b0, b1, b2, b3, b4, b5, b6, b7] :: bs
  | _ => none

/-- The levels of a frame, in the order they are sent (R117, R122). -/
def Frame.levels (f : Frame) : List Level := runLevels f.bytes

/-! ### The pair (R117) -/

/-- The level a station that sends `sent` drives at a bit time: recessive once it sends nothing. -/
def driven (sent : List Level) (i : Nat) : Level := sent.getD i .recessive

/-- The level of the pair: dominant when any station drives dominant, else recessive, as on an idle line (R117). -/
def pairLevel (levels : List Level) : Level := if .dominant ∈ levels then .dominant else .recessive

/-- The level of the pair at a bit time after stations have begun at once, each with its run of levels (R119). -/
def pairAt (sending : List (List Level)) (i : Nat) : Level := pairLevel (sending.map fun sent => driven sent i)

/-- The station that sends `sent` reads back dominant what it sent recessive: its collision (R120). -/
def collidesAt (sending : List (List Level)) (sent : List Level) (i : Nat) : Prop :=
  sent[i]? = some .recessive ∧ pairAt sending i = .dominant

/-! ### What this station drives (R117, R119, R122) -/

/-- The bytes of the attempt on the line: none without one. -/
def State.lineBytes (s : State) : List Byte :=
  match s.bus.line with
  | some f => f.bytes
  | none => []

/-- The levels this station sends in its attempt. With no attempt it drives nothing, and the pair is left to the
others (R117). -/
def State.lineLevels (s : State) : List Level := runLevels s.lineBytes

end Sys2Proof.Machine
end

