-- ==== Sys2Proof/Safety.lean ====
section
/-! DEFINITION. What a safe run is, the invariants every step keeps, and the terms in which statements say what
a command leaves unchanged. -/

namespace Sys2Proof

open Machine

/-- The outcome is a next state. -/
def Continues (o : Host.Outcome State Fault Refusal) : Prop := ∃ t, o = .next t

/-- A run of `n` steps from `s` meets no fault and no refusal. -/
def SafeFor (n : Nat) (s : State) : Prop := Continues (core.run n s)

/-! ### The Shelf Port around an EVENT (R165, R166) -/

/-- No RESTART waits for select to rise (R166). -/
def NoRestart (s : State) : Prop := ∀ sync, s.port.transaction ≠ .restart (some sync)

/-- The station is in service, and no RESTART waits for select to rise: what lets an EVENT past the first check
(R4, R30). -/
def TakesEvents (s : State) : Prop := s.outOfService = false ∧ NoRestart s

/-- Select has risen on whatever transaction was open (R165). -/
def raised (s : State) : State := { s with port := { s.port with transaction := .idle } }

/-- Select has risen, and the part has driven these bytes as its answer; nothing else has changed (R166). -/
def answered (s : State) (bytes : List Byte) : State :=
  { s with port := { s.port with transaction := .idle, out := bytes } }

/-- The bytes clocked after the completion point of an EVENT other than RESTART, an unknown kind among them (R166). -/
def Instr.clocksOut : Instr → Option Nat
  | .trunkSeize _ _ _ tag => some tag.clocked
  | .trunkAnswered t | .trunkRelease t => some t.clocked
  | .agentLogin _ ms => some ms.clocked
  | .agentNotReady _ r => some r.clocked
  | .agentLogout x | .agentReady x | .agentAnswer x | .agentClear x | .wrapDone x | .wrapExtend x => some x.clocked
  | .unknownEventKind x => some x.clocked
  | _ => none

/-- The position an agent event names. -/
def Instr.namesPosition : Instr → Option Nat
  | .agentLogin p _ | .agentNotReady p _ => some p
  | .agentLogout x | .agentReady x | .agentAnswer x | .agentClear x | .wrapDone x | .wrapExtend x => some x.value
  | _ => none

/-- A membership list in range: 1..4 entries of defined groups, none twice, with proficiencies 1..15 (R5). -/
def LoginInRange (s : State) (ms : List (Nat × Nat)) : Prop :=
  1 ≤ ms.length ∧ ms.length ≤ 4 ∧ (ms.map Prod.fst).Nodup ∧
    ∀ m ∈ ms, 1 ≤ m.2 ∧ m.2 ≤ 15 ∧ ∃ g : Group, g.val = m.1 ∧ s.defines g = true

/-! ### Changes of an agent record that several rules share -/

/-- The record enters `st`: the change mark is set, the deferred mark and a waiting RONA go (R23, R25, R169). For
the states other than READY and ALERTING. -/
def enters (p : Position) (st : AgentState) (s : State) : State :=
  { s with
    agents := alter s.agents p fun a => { a with state := st, changed := true, deferred := false }
    port := { s.port with waits := s.port.waits.filter fun w => w ≠ .rona p } }

/-- The record enters READY with `since`: the change mark is set, a waiting RONA goes (R23, R169). -/
def entersReady (p : Position) (since : Nat) (s : State) : State :=
  { s with
    agents := alter s.agents p fun a => { a with state := .ready since, changed := true }
    port := { s.port with waits := s.port.waits.filter fun w => w ≠ .rona p } }

/-- The wrap `w` is completed (R20, R55): the accumulators of the record and the AHT of the wrap group. -/
def wrapCompleted (p : Position) (w : WrapWork) (s : State) : State :=
  { s with
    agents := alter s.agents p fun a =>
      { a with counts := { a.counts with talk := min 65535 (a.counts.talk + a.talkS),
                                         wrap := min 65535 (a.counts.wrap + (w.wrapS + w.overS)) } }
    aht := alter s.aht w.group fun aht =>
      (7 * aht + min 3600 (max 1 ((s.agent p).talkS + w.wrapS + w.overS)) + 4) / 8 }

/-- The directives have joined the tail of the queue (R167). -/
def placed (ds : List Directive) (s : State) : State :=
  { s with port := { s.port with directives := s.port.directives ++ ds } }

/-- The expiry has left the room-wait list (R169). -/
def unawaited (w : RoomWait) (s : State) : State :=
  { s with port := { s.port with waits := s.port.waits.filter fun x => x ≠ w } }

/-- The expiry waits in the room-wait list, at its tail unless it was there (R169). -/
def awaited (w : RoomWait) (s : State) : State :=
  { s with port := { s.port with waits := if w ∈ s.port.waits then s.port.waits else s.port.waits ++ [w] } }

/-- The expiry waits in the room-wait list with another before it (R169). -/
abbrev waitsBehind (s : State) (w : RoomWait) : Prop := w ∈ s.port.waits ∧ s.port.waits.head? ≠ some w

/-- The call of an occupied slot has become `f` of it; the slot's own fields are unchanged. -/
def callBecomes (c : Slot) (f : Call → Call) (s : State) : State :=
  { s with calls := alter s.calls c fun r => { r with call := r.call.map f } }

/-- The call of an occupied slot has become `f` of it, and its deferred mark is `b`. -/
def callBecomesDeferred (c : Slot) (b : Bool) (f : Call → Call) (s : State) : State :=
  { s with calls := alter s.calls c fun r => { r with deferred := b, call := r.call.map f } }

/-- The figures of a group have become `f` of them (R46). -/
def groupCounts (g : Group) (f : GroupCounts → GroupCounts) (s : State) : State :=
  { s with counts := alter s.counts g f }

/-- The one occupied record that holds the trunk is the one in `c` (R27, R31). -/
def Holds (s : State) (t : Trunk) (c : Slot) (k : Call) : Prop :=
  s.callAt c = some k ∧ k.trunk = t ∧ ∀ d j, s.callAt d = some j → j.trunk = t → d = c

/-- The credit of one second, by state (R21). -/
def creditOf (a : Agent) : Agent :=
  match a.state with
  | .talking _ => { a with talkS := min 65535 (a.talkS + 1), busyCur := a.busyCur + 1 }
  | .wrap w e => { a with state := .wrap { w with wrapS := min 65535 (w.wrapS + 1) } e, busyCur := a.busyCur + 1 }
  | .wrapOver w t =>
    { a with
      state := .wrapOver { w with overS := min 65535 (w.overS + 1) } t
      debtCur := a.debtCur + 1
      counts := { a.counts with overrun := min 65535 (a.counts.overrun + 1) }
      busyCur := a.busyCur + 1 }
  | .loggedOut | .notReady _ | .ready _ | .claiming _ | .alerting .. => a

/-! ### The Summary Builder, the streams and the reports -/

/-- Step 1 of the ladder has been taken (R145): `d` is `u` with a reached hold deadline acted on. -/
def Downshifted (u d : State) : Prop :=
  ((∀ h, u.builder.hold = some h → u.now < h) ∨ u.builder.cadence = .slow → d = u) ∧
    ∀ h, u.builder.hold = some h → h ≤ u.now →
      (u.builder.cadence = .brisk → d = { u with builder := { u.builder with
        cadence := .easy, hold := some (u.now + u.conf.easyHold)
        period := u.builder.lastPlacement.map fun t => t + u.conf.easy } }) ∧
      (u.builder.cadence = .easy → d = { u with builder := { u.builder with
        cadence := .slow, hold := none, period := u.builder.lastPlacement.map fun t => t + u.conf.slow } })

/-- The Builder has placed a summary of the present content, and notes when (R126, R143, R145). -/
def summaryPlaced (s : State) : State :=
  { s with
    bus := Bus.choose (Bus.takeSummary (buildSummary s) s.bus)
    builder := { s.builder with lastPlacement := some s.now } }

/-- Step 3 of the ladder has been taken (R145): `t` is `d` with a reached period deadline acted on. -/
def PeriodTaken (d t : State) : Prop :=
  (∀ e, d.builder.period = some e → e ≤ d.now →
    t = { summaryPlaced d with builder := { d.builder with
            lastPlacement := some d.now, period := some (d.now + d.period d.builder.cadence) } }) ∧
    ((∀ e, d.builder.period = some e → d.now < e) → t = d)

/-- The stream is active, at a level of 32 or less, with bytes remaining (R107). -/
def NeedsFetch (s : State) (n : StreamId) : Prop :=
  ∃ p, (s.stream n).playing = some p ∧ (s.stream n).fifo.length ≤ 32 ∧ 0 < p.bytesLeft

/-- A byte field is a number modulo 256, a two-byte field its high byte and then its low byte (11.5; that the high byte is
first is the model's choice, log entry 43). -/
def FieldsAreNumbers : Prop :=
  ∀ n : Nat, (lowByte n).toNat = n % 256 ∧ (twoBytes n).map BitVec.toNat = [n / 256 % 256, n % 256]

/-- What stands in a counter's place once the fields `start` to `start + n - 1` of its report have been read, where
the counter is field `f` (R170). -/
def clearedBy (start n f x : Nat) : Nat := if start ≤ f ∧ f < start + n then 0 else x

/-- The bytes of `n` fields of a report from the field `start`, zero bytes beyond the last (R170). -/
def fieldsFrom (fields : List (List Byte)) (start n : Nat) : List Byte :=
  (List.range n).flatMap fun i => fields.getD (start + i) [0]

/-- The REPORT that asks about the subject (R170). -/
def reportInstr : ReportOf → Nat → Clocking → Instr
  | .agent p => .reportAgent p.val
  | .group g => .reportGroup g.val
  | .station => .reportStation
  | .unknown => .reportUnknownKind 0 0

/-! ### Selections (R64, R72, R161) -/

/-- The peer's entry for the group is a candidate for the call: the group is eligible, the peer has not declined and
has an agent ready in it (R64). -/
def PeerCandidate (s : State) (k : Call) (p : Station) (g : Group) : Prop :=
  k.declined[p] = false ∧ g ∈ s.eligibleGroups k ∧ 0 < (peerEntry s p g).ready

/-- The call in a slot is open to selection and its eligible groups meet the agent's memberships (R72). -/
def OpenTo (s : State) (a : Agent) (c : Slot) (k : Call) : Prop :=
  c ∈ s.queuedSlots ∧ s.callAt c = some k ∧ k.state = .waiting ∧ k.divertPending = false ∧
    ∃ g ∈ s.eligibleGroups k, a.memberOf g = true

/-- The call in a slot may answer a CLAIM of the peer for the group (R161). -/
def Claimable (s : State) (p : Station) (g : Group) (c : Slot) (k : Call) : Prop :=
  c ∈ s.queuedSlots ∧ s.callAt c = some k ∧ k.state = .waiting ∧ k.divertPending = false ∧ k.tier ≠ 0 ∧
    g ∈ s.eligibleGroups k ∧ k.declined[p] = false

/-! ### Marks and frames (R40, R122 to R124, R148) -/

/-- The call's mark has been cleared with the peer named (R40 steps 1 and 2). A station is never in its own
declined-by set (R42). -/
def markCleared (c : Slot) (p : Station) (s : State) : State :=
  unawaited (.watch c) (callBecomes c (fun k =>
    { k with state := .waiting, declined := if s.bus.id = some p then k.declined else k.declined.set p.val true }) s)

/-- What follows a cleared mark: the divert of a call with divert pending, else an attempt (R40 step 5). -/
def divertOrAttempt (c : Slot) (k : Call) (s : State) : State :=
  if k.divertPending = true then divertDue c s else attemptCall c s

/-- A frame or reply that matched nothing has been counted (R148). -/
def staleCounted (s : State) : State := { s with exch := { s.exch with stale := min 65535 (s.exch.stale + 1) } }

/-- A frame that failed a test has been counted (R123). -/
def checkErrorCounted (s : State) : State :=
  { s with bus := { s.bus with checkErrors := min 65535 (s.bus.checkErrors + 1), sentFirstByte := false } }

/-- A valid frame has been counted (R124 step 1). -/
def frameCounted (s : State) : State :=
  { s with bus := { s.bus with framesReceived := min 65535 (s.bus.framesReceived + 1), sentFirstByte := false } }

/-- A valid frame of a peer has been counted, and its row refreshed or made present (R124, R135). -/
def heardFrom (p : Station) (s : State) : State :=
  { frameCounted s with peers :=
      match s.peers.rows[p] with
      | some row =>
        { s.peers with rows := alter s.peers.rows p fun _ => some { row with absence := s.now + 3 * s.conf.slow } }
      | none =>
        { rows := alter s.peers.rows p fun _ => some ⟨s.now + 3 * s.conf.slow, none, []⟩
          changed := s.peers.changed.set p.val true } }

/-- The agent's claim record has left the table (R160). -/
def claimRemoved (p : Position) (s : State) : State :=
  { s with exch := { s.exch with claims := s.exch.claims.filter fun r => r.position ≠ p } }

/-- A reference as it stands in a frame (R122). -/
def rawOf (r : CallRef) : RawRef := ⟨r.home.val, r.slot.val, r.gen.val⟩

/-- The command of a received frame with these fields. -/
def frameInstr (h : Header) : Body → Instr
  | .summary es => .summary h (es.map fun e => ⟨e.group.val, e.ready, e.best, e.waiting, e.age⟩)
  | .offer r g p t tag age => .offer h (rawOf r) g.val p t.val tag age
  | .claim g st p sc => .claim h g.val st.val p.val sc
  | .accept r p sc => .accept h (rawOf r) p.val sc
  | .decline r k => .decline h (rawOf r) k.code
  | .cancel r => .cancel h (rawOf r)
  | .answered r p => .answered h (rawOf r) p.val
  | .returned r p => .returned h (rawOf r) p.val
  | .nocall g p => .nocall h g.val p.val

/-- The entry's figures are in their ranges (R122). -/
def EntryInRange (e : Entry) : Prop := e.ready ≤ 48 ∧ e.best ≤ 35495 ∧ e.waiting ≤ 64 ∧ e.age ≤ 65535

/-- The fields that are not in range by their type are (R122). -/
def BodyInRange : Body → Prop
  | .summary es => es.length ≤ 16 ∧ ∀ e ∈ es, EntryInRange e
  | .offer _ _ p _ _ age => p ≤ 255 ∧ age ≤ 65535
  | .claim _ _ _ sc | .accept _ _ sc => sc ≤ 35495
  | .decline .. | .cancel _ | .answered .. | .returned .. | .nocall .. => True

/-- The reference is out of range (R122). -/
def RefOutside (r : RawRef) : Prop := 15 ≤ r.home ∨ 64 ≤ r.slot ∨ 16 ≤ r.gen

/-- A frame of the peer `p` reaches this station, `me`, in service (R124). -/
def Arrives (s : State) (h : Header) (p me : Station) : Prop :=
  s.outOfService = false ∧ s.bus.id = some me ∧ me ≠ p ∧ h.source = p.val ∧ (h.dest = 15 ∨ h.dest = me.val)

/-! ### The image (R176, R178, 11.5)

The conditions below name a byte of the image by its address in 11.5: the group records of 35 bytes from 31, the lists of
4 bytes from 591, the step count at 719, the steps of 7 bytes from 721, the clips of 6 bytes from 2513, the playlists of 9
bytes from 3281. -/

/-- The list is defined: its length is not 0 (R176). -/
def ListDefined (img : List Byte) (l : Nat) : Prop := l < 32 ∧ u16 img (592 + 4 * l) ≠ 0

/-- The group record is defined (R176). -/
def GroupDefined (img : List Byte) (g : Nat) : Prop := g < 16 ∧ u8 img (31 + 35 * g) ≠ 0

/-- The directory entry is present: its length is not 0 (R176). -/
def ClipPresent (img : List Byte) (c : Nat) : Prop := c < 128 ∧ u24 img (2516 + 6 * c) ≠ 0

/-- Step `n` of the step area stands at index `i` of the defined list `l`, with kind `k` (R176, R178). -/
def StepInList (img : List Byte) (l i n k : Nat) : Prop :=
  ListDefined img l ∧ i < u16 img (592 + 4 * l) ∧ n = u8 img (591 + 4 * l) + i ∧ u8 img (721 + 7 * n) = k

/-- The structural check of this code fails (R178). The header checks 1 and 2 and the sum are judged apart. -/
def Fails (img : List Byte) : Nat → Prop
  | 4 => 14 < u8 img 7
  | 5 => 256 < u16 img 719
  | 6 => ∃ l, ListDefined img l ∧ (u16 img 719 < u8 img (591 + 4 * l) + u16 img (592 + 4 * l) ∨
      u16 img (592 + 4 * l) ≤ u8 img (594 + 4 * l))
  | 7 => ∃ n, n < u16 img 719 ∧ (u8 img (721 + 7 * n) < 1 ∨ 8 < u8 img (721 + 7 * n) ∨
      (u8 img (721 + 7 * n) = 3 ∧ 1 < u8 img (722 + 7 * n)) ∨ (u8 img (721 + 7 * n) = 6 ∧ 4 < u8 img (722 + 7 * n)))
  | 8 => (∃ g, GroupDefined img g ∧ ¬ ListDefined img (u8 img (31 + 35 * g + 32))) ∨
      ∃ l i n, StepInList img l i n 7 ∧ ¬ ListDefined img (u8 img (722 + 7 * n))
  | 9 => ∃ g, GroupDefined img g ∧ u8 img (31 + 35 * g + 15) ≠ 255 ∧
      (¬ GroupDefined img (u8 img (31 + 35 * g + 15)) ∨ u8 img (31 + 35 * g + 15) = g)
  | 10 => (∃ l i n, StepInList img l i n 2 ∧ ¬ ClipPresent img (u8 img (722 + 7 * n))) ∨
      (∃ l i n d, StepInList img l i n 3 ∧ d < 10 ∧ ¬ ClipPresent img (u8 img (723 + 7 * n) + d)) ∨
      ∃ b i, b < 4 ∧ i < min 8 (u8 img (3281 + 9 * b)) ∧ ¬ ClipPresent img (u8 img (3282 + 9 * b + i))
  | 11 => (∃ l i n, StepInList img l i n 1 ∧ 3 < u8 img (722 + 7 * n)) ∨
      ∃ g, GroupDefined img g ∧ 3 < u8 img (31 + 35 * g + 33)
  | 12 => ∃ b, b < 4 ∧ (u8 img (3281 + 9 * b) = 0 ∨ 8 < u8 img (3281 + 9 * b))
  | 13 => ∃ c, c < 128 ∧ memoryBytes img < u24 img (2513 + 6 * c) + u24 img (2516 + 6 * c)
  | 14 => ∃ l i n t, StepInList img l i n 6 ∧ t < max 1 (min 4 (u8 img (723 + 7 * n))) ∧
      (u8 img (724 + 7 * n + t) ≤ i ∨ u16 img (592 + 4 * l) ≤ u8 img (724 + 7 * n + t))
  | 15 => ∃ l i n j m, StepInList img l i n 7 ∧ StepInList img (u8 img (722 + 7 * n)) j m 7
  | 16 => ∃ l i n, StepInList img l i n 5 ∧ (i + 1 = u16 img (592 + 4 * l) ∨
      u8 img (721 + 7 * (n + 1)) ∉ [1, 2, 3, 4, 7])
  | 17 => ∃ g, g < 16 ∧
      ¬ (u16 img (31 + 35 * g + 20) < u16 img (31 + 35 * g + 22) ∧ u16 img (31 + 35 * g + 22) < u16 img (31 + 35 * g + 24) ∧
        u16 img (31 + 35 * g + 26) < u16 img (31 + 35 * g + 28) ∧ u16 img (31 + 35 * g + 28) < u16 img (31 + 35 * g + 30))
  | _ => False

/-- Every numeric field of the station block, of the sixteen group records and of the steps, as its range and its value
in the image (R179; which group records and steps count is the model's choice, log entry 20). -/
def NumericFields (img : List Byte) : List (Nat × Nat × Nat) :=
  [(0, 8191, u16 img 10), (150, 1800, u16 img 12), (2, 50, u8 img 14), (2, 50, u8 img 15), (10, 100, u8 img 16),
    (1, 600, u16 img 17), (1, 600, u16 img 19), (1, 600, u16 img 21), (1, 6000, u16 img 23), (1, 6000, u16 img 25),
    (0, 1, u8 img 27), (1, 4096, u16 img 29)] ++
  ((List.range 16).flatMap fun g =>
    [(0, 600, u16 img (31 + 35 * g + 1)), (0, 300, u16 img (31 + 35 * g + 3)), (0, 1800, u16 img (31 + 35 * g + 5)),
      (5, 60, u8 img (31 + 35 * g + 8)), (0, 3600, u16 img (31 + 35 * g + 9)), (0, 3600, u16 img (31 + 35 * g + 11)),
      (0, 3600, u16 img (31 + 35 * g + 13)), (0, 15, u8 img (31 + 35 * g + 16)), (0, 15, u8 img (31 + 35 * g + 17)),
      (1, 3600, u16 img (31 + 35 * g + 18))]) ++
  ((List.range (u16 img 719)).flatMap fun n =>
    match u8 img (721 + 7 * n) with
    | 1 => [(1, 255, u8 img (723 + 7 * n))]
    | 4 => [(1, 255, u8 img (722 + 7 * n))]
    | 5 => [(0, 127, u8 img (722 + 7 * n))]
    | 6 => [(1, 4, u8 img (723 + 7 * n))]
    | _ => [])

/-- A number set to the nearer bound of a range it lies outside (R179). -/
def nearer (lo hi n : Nat) : Nat := max lo (min hi n)

/-- How many of the two order clamps a group record draws (R179). -/
def GroupOrderClamps (t1 t2 w : Nat) : Nat := (if t2 < t1 then 1 else 0) + if 0 < w ∧ w < max t1 t2 then 1 else 0

/-! ### The treatment (R87, R90, R93) -/

/-- The call's context has become `f` of it. -/
def contextBecomes (c : Slot) (f : Context → Context) (s : State) : State :=
  callBecomes c (fun k => { k with context := k.context.map f }) s

/-- The voice is the one a SAY or SAY_VALUE of the call plays on: the call's own, else the lowest free one, which needs
room for the LISTEN (R90; log entry 16). -/
def PlaysOn (s : State) (c : Slot) (v : Voice) : Prop :=
  (s.treat.voices[v] = some c ∧ ∀ w, w < v → s.treat.voices[w] ≠ some c) ∨
    ((∀ w : Voice, s.treat.voices[w] ≠ some c) ∧ 0 < s.free ∧ s.treat.voices[v] = none ∧
      ∀ w, w < v → s.treat.voices[w] ≠ none)

/-- The voice has been attached to the call, or freed (R93). -/
def voiceHeld (v : Voice) (x : Option Slot) (s : State) : State :=
  { s with treat := { s.treat with voices := alter s.treat.voices v fun _ => x } }

/-- The bed has gained or lost a listener (R99). -/
def listenersBecome (b : Bed) (f : Nat → Nat) (s : State) : State :=
  { s with treat := { s.treat with listeners := alter s.treat.listeners b f } }

/-! ### Invariants -/

/-- The capacities of the queues and the claim table, and the ranges of the counts that are not wrapped or
saturated by their own rule (R55, R113, R118, R125, R147, R167). -/
def Bounded (s : State) : Prop :=
  s.port.directives.length ≤ 32 ∧ s.bus.replies.length ≤ 8 ∧ s.bus.ordinary.length ≤ 8 ∧ s.exch.claims.length ≤ 8 ∧
    s.time.frames < 800 ∧ s.bus.attempts ≤ 15 ∧ s.bus.dropRun ≤ 3 ∧
    (s.bus.station.sendsReplies = true → s.bus.dropRun ≤ 2) ∧ ∀ g : Group, 1 ≤ s.aht[g] ∧ s.aht[g] ≤ 3600

/-- Every counter and accumulator stops at 65535 (00_scope.md, 6.2; R46, R104, R133, R147, R63, R82, R179). -/
def CountersBounded (s : State) : Prop :=
  (∀ p : Position, (s.agent p).counts.answered ≤ 65535 ∧ (s.agent p).counts.talk ≤ 65535 ∧
      (s.agent p).counts.wrap ≤ 65535 ∧ (s.agent p).counts.overrun ≤ 65535 ∧ (s.agent p).counts.rona ≤ 65535) ∧
    (∀ g : Group, s.counts[g].offeredIn ≤ 65535 ∧ s.counts[g].answeredLocal ≤ 65535 ∧
      s.counts[g].answeredByPeers ≤ 65535 ∧ s.counts[g].takenFromPeers ≤ 65535 ∧ s.counts[g].abandoned ≤ 65535 ∧
      s.counts[g].diverted ≤ 65535 ∧ s.counts[g].ronaReturns ≤ 65535) ∧
    (∀ n : StreamId, (s.stream n).underruns ≤ 65535) ∧ s.deferrals ≤ 65535 ∧ s.treat.shortages ≤ 65535 ∧
    s.treat.stalls ≤ 65535 ∧ s.exch.stale ≤ 65535 ∧ s.load.clamped ≤ 65535 ∧ s.bus.framesSent ≤ 65535 ∧
    s.bus.framesReceived ≤ 65535 ∧ s.bus.checkErrors ≤ 65535 ∧ s.bus.collisions ≤ 65535 ∧ s.bus.dropped ≤ 65535 ∧
    s.bus.repliesLost ≤ 65535

/-- No FIFO overflows: it holds at most 64 samples, and has room for the bytes of a read in flight that it will
keep (R104, R107, R108). -/
def FifosFit (s : State) : Prop :=
  (∀ n : StreamId, (s.stream n).fifo.length ≤ 64) ∧
    ∀ r, s.clips.inFlight = some r →
      r.epoch ≤ (s.stream r.stream).epoch ∧
        (r.epoch = (s.stream r.stream).epoch → (s.stream r.stream).fifo.length + r.count ≤ 64)

/-- A call reference is bound to at most one agent (R13), and an agent has a claim record exactly when it is
CLAIMING, and at most one (R17). -/
def BindingsAgree (s : State) : Prop :=
  (∀ p q r, (s.agent p).boundTo r = true → (s.agent q).boundTo r = true → p = q) ∧
    (∀ p, (∃ x ∈ s.exch.claims, x.position = p) ↔ ∃ n, (s.agent p).state = .claiming n) ∧
    (s.exch.claims.map Claim.position).Nodup

/-- A call is in its home group's queue, once, exactly while it is occupied and not CONNECTED; priority classes never
decrease from head to tail, and within one class arrival stamps never decrease (R37). No arrival lies ahead of station
time, and while the image is read, after which station time starts at 0, the station is STARTING and holds no call (R30,
R113, R177). -/
def QueuesAgree (s : State) : Prop :=
  (∀ g, (s.queue g).Nodup) ∧
    (∀ g c, c ∈ s.queue g ↔ ∃ k, s.callAt c = some k ∧ k.group = g ∧ k.state ≠ .connected) ∧
    (∀ g, (s.queue g).Pairwise fun c d => ∀ j k, s.callAt c = some j → s.callAt d = some k →
      j.priority < k.priority ∨ (j.priority = k.priority ∧ j.arrival ≤ k.arrival)) ∧
    (∀ c k, s.callAt c = some k → k.arrival ≤ s.now) ∧
    (s.load.reading.isSome = true → s.bus.station = .starting ∧ ∀ c, s.callAt c = none)

/-- The frame is of a kind that the lane carries (R125). -/
def Lane.carries : Lane → Body → Prop
  | .reply, .accept .. | .reply, .decline .. | .reply, .cancel _ | .reply, .answered .. => True
  | .reply, .returned .. | .reply, .nocall .. => True
  | .ordinary, .offer .. | .ordinary, .claim .. => True
  | .summary, .summary _ => True
  | _, _ => False

/-- The lane may be sent in the station state (R128). -/
def laneAllowed (st : StationState) : Lane → Bool
  | .reply => st.sendsReplies
  | .ordinary => st.sendsOrdinary
  | .summary => st.sendsSummaries

/-- The queues hold only what the station state lets the station send, and what is on the line is the frame in hand, the
head of its queue, with this station's ID as its source (R118, R119, R122, R125, R128). -/
def SendersAgree (s : State) : Prop :=
  (s.load.reading.isSome = true → s.bus.station = .starting) ∧
    (s.bus.replies ≠ [] → s.bus.station.sendsReplies = true) ∧
    (s.bus.ordinary ≠ [] → s.bus.station.sendsOrdinary = true) ∧
    (s.bus.slot.isSome = true → s.bus.station.sendsSummaries = true) ∧
    (∀ f ∈ s.bus.replies, Lane.carries .reply f.body) ∧ (∀ f ∈ s.bus.ordinary, Lane.carries .ordinary f.body) ∧
    (∀ l, s.bus.inHand = some l → laneAllowed s.bus.station l = true ∧ (s.bus.headOf l).isSome = true) ∧
    ∀ f, s.bus.line = some f → s.bus.id = some f.source ∧
      ∃ l, s.bus.inHand = some l ∧ Lane.carries l f.body ∧ s.bus.headOf l = some ⟨f.dest, f.body⟩

end Sys2Proof
end

