-- ==== Sys2Proof/Certificates/Slice0/Obligations.lean ====
section
/-! DEFINITION. The statements for the provers. A command's next state is written as the state before it with the
parts it changes named, so that every part not named is unchanged; `attend` adds the attention line's response
(its own statement is `AttentionLineFollowsTheCauses`). -/

section Statements

open Sys2Proof Sys2Proof.Machine

/-! ### The machine -/

/-- Taking the command at the front of the queue is running it on the queue's rest. The second part is the model's
choice: with no command waiting the block idles (log entry 4). -/
def Obligations.StepTakesTheFrontCommand : Prop :=
  (∀ (s : State) (c : Instr), step { s with pending := c :: s.pending } = exec c s) ∧
    ∀ s : State, s.pending = [] → step s = .next s

/-- Every command ends in a next state, so no run of the block, from any state, meets a fault or a refusal. -/
def Obligations.NoCommandStopsTheBlock : Prop :=
  (∀ (c : Instr) (s : State), Continues (exec c s)) ∧ ∀ (n : Nat) (s : State), SafeFor n s

/-! ### Resets (R3, R28, R48, R63, R82, R104, R107, R113, R118, R134, R142, R147, R172, R181) -/

/-- POWER_ON gives every block its reset value, and leaves the waiting commands waiting (the second is the model's
choice, log entry 9). The sync input is as found (R113). -/
def Obligations.PowerOnResetsEveryBlock : Prop :=
  ∀ (sync : Bool) (s : State), ∃ t, exec (.powerOn sync) s = .next t ∧ t.pending = s.pending ∧
    (∀ p, t.agent p = ⟨.loggedOut, [], 0, false, 0, 0, 0, 0, ⟨0, 0, 0, 0, 0⟩, false, false⟩) ∧
    (∀ c, t.slotRec c = ⟨0, false, none⟩) ∧
    (∀ g : Group, t.queue g = [] ∧ t.counts[g] = ⟨0, 0, 0, 0, 0, 0, 0⟩ ∧ t.aht[g] = 180) ∧ t.deferrals = 0 ∧
    (∀ v : Voice, t.treat.voices[v] = none) ∧ (∀ b : Bed, t.treat.listeners[b] = 0) ∧ t.treat.holdList = [] ∧
    t.treat.shortages = 0 ∧ t.treat.stalls = 0 ∧
    (∀ n, t.stream n = ⟨none, [], false, 0, 0⟩) ∧ t.clips.lastServed = 15 ∧ t.clips.inFlight = none ∧
    (∀ i : Fin 32, t.highway[i] = none) ∧
    t.time.ds = 0 ∧ t.time.frames = 0 ∧ t.time.windowCount = 0 ∧ t.time.running = false ∧
    t.time.syncPresent = sync ∧ t.time.clockLoss = false ∧ t.time.divisor = 2048 ∧
    (∀ q : Station, t.peers.rows[q] = none ∧ t.peers.changed[q] = false) ∧
    t.exch.claims = [] ∧ t.exch.stale = 0 ∧
    t.builder = ⟨.brisk, none, none, none, none⟩ ∧
    t.bus.station = .starting ∧ t.bus.id = none ∧ t.bus.inHand = none ∧ t.bus.attempts = 0 ∧ t.bus.backoff = none ∧
    t.bus.dropRun = 0 ∧ t.bus.line = none ∧ t.bus.rng = none ∧ t.bus.replies = [] ∧ t.bus.ordinary = [] ∧
    t.bus.slot = none ∧ t.bus.framesSent = 0 ∧ t.bus.framesReceived = 0 ∧ t.bus.checkErrors = 0 ∧
    t.bus.collisions = 0 ∧ t.bus.dropped = 0 ∧ t.bus.repliesLost = 0 ∧
    t.port.directives = [] ∧ t.port.waits = [] ∧ (∀ c : Cause, causePending t c = false) ∧ lineLow t = false ∧
    t.cfg = none ∧ t.load.reading = some ([], 0) ∧ t.load.clamped = 0

/-- A RESTART whose outcome byte has been wholly clocked out is a power-on reset at the rise of select, the sync input as that
reset finds it (R115, R166, R181; that the command says so with the outcome byte is the model's choice, log entry 8); the
record of the bytes driven keeps the outcome (log entry 9). A rise before that aborts it. -/
def Obligations.RestartIsTheSameReset : Prop :=
  (∀ (s : State) (n : Nat) (sync : Bool), ∃ t, exec (.powerOn sync) s = .next t ∧
      exec (.restart (.through (n + 1) sync)) s =
        .next { t with port := { t.port with out := List.replicate (n + 1) 0 } }) ∧
    (∀ (s : State) (sync : Bool), s.port.transaction = .restart (some sync) → ∃ t, exec (.powerOn sync) s = .next t ∧
      exec .transactionAbort s = .next { t with port := { t.port with out := s.port.out } }) ∧
    (∀ s : State, NoRestart s → (∀ sync, exec (.restart (.through 0 sync)) s = .next (answered s [])) ∧
      exec (.restart .opens) s =
        .next { s with port := { s.port with transaction := .restart none, out := [] } }) ∧
    ∀ (s : State) (found : Option Bool) (sync : Bool), s.port.transaction = .restart found →
      exec (.restart (.lastBit sync)) s =
        .next { s with port := { s.port with transaction := .restart (some sync), out := s.port.out ++ [0] } }

/-- Raising select ends any transaction but a RESTART whose outcome is out, and changes nothing else; an unknown command
byte drives zero bytes (R165). -/
def Obligations.SelectRiseEndsTheTransaction : Prop :=
  ∀ s : State, NoRestart s → exec .transactionAbort s = .next (raised s) ∧
    ∀ command n, exec (.unknownCommand command n) s = .next (answered s (List.replicate n 0))

/-! ### The load (R176 to R181) -/

/-- The reads of a load: the header is checked when it arrives, and a fault ends the load with nothing more read; the
bytes and the running sum are kept and the next read follows; at the last read the sum and the structural checks are
judged, and a fault leaves every block at its value, the station UNCONFIGURED and LOAD_FAULT pending (R129, R172, R177,
R178). What the header checks are, and what each structural check is: the fault code is the lowest that fails (R177,
R178). The division into reads, and which steps checks 8, 10 and 11 cover, are the model's choice (log entries 19 and 21). -/
def Obligations.LoadReadsTheImage : Prop :=
  (∀ (s : State) (bytes : Vector Byte 32) (got new img : List Byte) (sum : Nat) (failed : Nat → State),
    s.load.reading = some (got, sum) → new = bytes.toList.take (readLength got) → img = got ++ new →
    (∀ code, failed code = { s with
      load := { s.load with reading := none }
      bus := { s.bus with station := .unconfigured }
      port := { s.port with loadFault := some code } }) →
    (img.length = 8 → ∀ code, headerFault img = some code →
      exec (.loadReadArrives bytes) s = .next (attend s (failed code))) ∧
    ((img.length = 8 ∧ headerFault img = none) ∨ (img.length ≠ 8 ∧ img.length ≠ imageLength img) →
      exec (.loadReadArrives bytes) s =
        .next { s with load := { s.load with reading := some (img, addToSum got.length sum new) } }) ∧
    ∀ code, img.length ≠ 8 → img.length = imageLength img →
      (addToSum got.length sum new ≠ 0 ∧ code = 3) ∨
        (addToSum got.length sum new = 0 ∧ structuralFault img = some code) →
      exec (.loadReadArrives bytes) s = .next (attend s (failed code))) ∧
  (∀ img : List Byte,
    (headerFault img = some 1 ↔ u16 img 0 ≠ 0x5344) ∧
    (headerFault img = some 2 ↔ u16 img 0 = 0x5344 ∧ (u16 img 2 < 3317 ∨ memoryBytes img < u16 img 2)) ∧
    (headerFault img = none ↔ u16 img 0 = 0x5344 ∧ 3317 ≤ u16 img 2 ∧ u16 img 2 ≤ memoryBytes img) ∧
    memoryBytes img = 65536 * (if u8 img 6 = 0 then 256 else u8 img 6) ∧ imageLength img = u16 img 2) ∧
  (∀ (img : List Byte) (a : Nat),
    u8 img a = (if h : a < img.length then img[a].toNat else 0) ∧ u16 img a = 256 * u8 img a + u8 img (a + 1) ∧
    u24 img a = 65536 * u8 img a + 256 * u8 img (a + 1) + u8 img (a + 2)) ∧
  ∀ img : List Byte,
    (∀ code, structuralFault img = some code ↔ Fails img code ∧ ∀ c, c < code → ¬ Fails img c) ∧
    (structuralFault img = none ↔ ∀ c, ¬ Fails img c)

/-- A load without a fault hands the image to the blocks within its last read: station time starts at 0, the
generator is seeded, the station is JOINING with the summary of its content placed and in hand (R180, R48, R113, R121,
R130, R146); every numeric field is set to the nearer bound of its range and counted (R179). The model's choices: the frame
count keeps its value (log entry 7), the fields of unused records and steps count (log entry 20), and slots 0 to 16 show
silence at once (log entry 27). -/
def Obligations.LoadEndsInJoining : Prop :=
  (∀ (s : State) (bytes : Vector Byte 32) (got img : List Byte) (sum : Nat),
    s.load.reading = some (got, sum) → img = got ++ bytes.toList.take (readLength got) → img.length ≠ 8 →
    img.length = imageLength img → addToSum got.length sum (bytes.toList.take (readLength got)) = 0 →
    structuralFault img = none → s.bus.inHand = none → s.bus.replies = [] → s.bus.ordinary = [] →
    s.bus.line = none →
    ∃ t, exec (.loadReadArrives bytes) s = .next (attend s t) ∧
      t.cfg = some (configurationOf img) ∧ t.load = ⟨none, clampCount img⟩ ∧
      t.time = { s.time with ds := 0, running := true, divisor := (configurationOf img).divisor } ∧
      (∀ g : Group, t.aht[g] = (groupOf img g.val).initialAht) ∧
      (∃ me : Station, me.val = u8 img 7 ∧ t.bus.id = some me ∧
        t.bus.rng = some (seedRandom (configurationOf img).seed me)) ∧
      t.bus.station = .joining (configurationOf img).joinInterval ∧ t.bus.dropRun = 0 ∧
      t.bus.inHand = some .summary ∧ t.bus.attempts = 0 ∧ t.bus.backoff = none ∧ t.bus.slot = some (buildSummary t) ∧
      t.builder.cadence = .brisk ∧ t.builder.hold = some (configurationOf img).briskHold ∧
      t.builder.period = some (configurationOf img).brisk ∧ t.builder.lastPlacement = some 0 ∧
      t.builder.lastSent = s.builder.lastSent ∧
      (∀ i : Fin 32, t.highway[i] =
        if s.time.syncPresent = true ∧ i.val ≤ 16 then some (configurationOf img).silence else none) ∧
      t.agents = s.agents ∧ t.calls = s.calls ∧ t.queues = s.queues ∧ t.counts = s.counts ∧ t.treat = s.treat ∧
      t.clips = s.clips ∧ t.exch = s.exch ∧ t.peers = s.peers ∧ t.port = s.port ∧ t.deferrals = s.deferrals ∧
      t.pending = s.pending) ∧
  ∀ img : List Byte,
    clampCount img = min 65535 (
      (NumericFields img).countP (fun f => decide (f.2.2 < f.1 ∨ f.2.1 < f.2.2)) +
      ((List.range 16).map fun g => GroupOrderClamps (nearer 0 3600 (u16 img (31 + 35 * g + 9)))
        (nearer 0 3600 (u16 img (31 + 35 * g + 11))) (nearer 0 3600 (u16 img (31 + 35 * g + 13)))).sum +
      (if nearer 1 600 (u16 img 19) < nearer 1 600 (u16 img 17) then 1 else 0) +
      if nearer 1 600 (u16 img 21) < max (nearer 1 600 (u16 img 17)) (nearer 1 600 (u16 img 19)) then 1 else 0) ∧
    ∃ c : Configuration, c = configurationOf img ∧
      c.seed.toNat = u16 img 8 ∧ c.margin = nearer 0 8191 (u16 img 10) ∧ c.windowHalf = nearer 150 1800 (u16 img 12) ∧
      c.offerTimeout = nearer 2 50 (u8 img 14) ∧ c.claimTimeout = nearer 2 50 (u8 img 15) ∧
      c.joinInterval = nearer 10 100 (u8 img 16) ∧ c.brisk = nearer 1 600 (u16 img 17) ∧
      c.easy = max c.brisk (nearer 1 600 (u16 img 19)) ∧ c.slow = max c.easy (nearer 1 600 (u16 img 21)) ∧
      c.briskHold = nearer 1 6000 (u16 img 23) ∧ c.easyHold = nearer 1 6000 (u16 img 25) ∧
      (c.pulseMode = true ↔ u8 img 27 ≠ 0) ∧ c.silence.toNat = u8 img 28 ∧ c.divisor = nearer 1 4096 (u16 img 29) ∧
      (∀ (g : Group) (a : Nat), a = 31 + 35 * g.val → c.groups[g] = groupOf img g.val ∧
        ((groupOf img g.val).defined = true ↔ u8 img a ≠ 0) ∧
        (groupOf img g.val).wrapBudget = nearer 0 600 (u16 img (a + 1)) ∧
        (groupOf img g.val).extension = nearer 0 300 (u16 img (a + 3)) ∧
        (groupOf img g.val).graceLimit = nearer 0 1800 (u16 img (a + 5)) ∧
        ((groupOf img g.val).autoReady = true ↔ u8 img (a + 7) ≠ 0) ∧
        (groupOf img g.val).alertTime = nearer 5 60 (u8 img (a + 8)) ∧
        (groupOf img g.val).t1 = nearer 0 3600 (u16 img (a + 9)) ∧
        (groupOf img g.val).t2 = max (groupOf img g.val).t1 (nearer 0 3600 (u16 img (a + 11))) ∧
        (groupOf img g.val).maxWait = (if u16 img (a + 13) = 0 then 0
          else max (groupOf img g.val).t2 (nearer 0 3600 (u16 img (a + 13)))) ∧
        (∀ o : Group, (groupOf img g.val).overflow = some o ↔ o.val = u8 img (a + 15)) ∧
        (groupOf img g.val).wIdle = nearer 0 15 (u8 img (a + 16)) ∧
        (groupOf img g.val).wOcc = nearer 0 15 (u8 img (a + 17)) ∧
        (groupOf img g.val).initialAht = nearer 1 3600 (u16 img (a + 18)) ∧
        (groupOf img g.val).ewtAt = (u16 img (a + 20), u16 img (a + 22), u16 img (a + 24)) ∧
        (groupOf img g.val).posAt = (u16 img (a + 26), u16 img (a + 28), u16 img (a + 30)) ∧
        (groupOf img g.val).treatment = u8 img (a + 32) ∧
        (u8 img (a + 33) ≤ 3 → (groupOf img g.val).fallback.val = u8 img (a + 33)) ∧
        (groupOf img g.val).divertCode.toNat = u8 img (a + 34)) ∧
      (∀ l : Fin 32, c.lists[l] = if u16 img (592 + 4 * l.val) = 0 then none
        else some ⟨(List.range (u16 img (592 + 4 * l.val))).map fun i => stepOf img (u8 img (591 + 4 * l.val) + i),
          u8 img (594 + 4 * l.val)⟩) ∧
      (∀ k : Fin 128, c.directory[k] = if u24 img (2516 + 6 * k.val) = 0 then none
        else some ⟨u24 img (2513 + 6 * k.val), u24 img (2516 + 6 * k.val)⟩) ∧
      (∀ b : Bed, c.playlists[b] = (List.range (u8 img (3281 + 9 * b.val))).map fun i => u8 img (3282 + 9 * b.val + i)) ∧
      ∀ (n : Nat) (f : Nat → Nat), (∀ i, f i = u8 img (722 + 7 * n + i)) →
        (u8 img (721 + 7 * n) = 1 → ∀ b : Bed, b.val = f 0 → stepOf img n = .bed b (nearer 1 255 (f 1))) ∧
        (u8 img (721 + 7 * n) = 2 → stepOf img n = .say (f 0)) ∧
        (u8 img (721 + 7 * n) = 3 → (f 0 = 0 → stepOf img n = .sayValue .position (f 1)) ∧
          (f 0 = 1 → stepOf img n = .sayValue .ewtMinutes (f 1))) ∧
        (u8 img (721 + 7 * n) = 4 → stepOf img n = .silence (nearer 1 255 (f 0))) ∧
        (u8 img (721 + 7 * n) = 5 → stepOf img n = .repeatNext (nearer 0 127 (f 0))) ∧
        (u8 img (721 + 7 * n) = 6 → ∀ on : BranchOn,
          [BranchOn.positionBucket, .ewtBucket, .tier, .priority, .visit][f 0]? = some on →
          stepOf img n = .branch on ((List.range (nearer 1 4 (f 1))).map fun t => f (2 + t))) ∧
        (u8 img (721 + 7 * n) = 7 → stepOf img n = .nest (f 0)) ∧
        (u8 img (721 + 7 * n) = 8 → stepOf img n = .endList)

/-! ### EVENTs refused (R4, R30, R166) -/

/-- Every event but RESTART is answered REFUSED_STARTING while the station is STARTING or UNCONFIGURED; in service an
unknown kind, a position above 47 and a reason above 13 are REFUSED_RANGE. Nothing else changes (R4, R7, R30, R166). The
bytes driven are the outcome and, for a TAKEN seizure, the slot, cut short by an early rise of select and followed by zero
bytes before a late one (R165, R166). The range tests of AGENT_LOGIN and TRUNK_SEIZE are in `LoginStoresTheMemberships`
and `SeizeRecordsTheCall`. -/
def Obligations.EventsAreRefused : Prop :=
  (∀ (c : Instr) (s : State) (z : Nat), c.clocksOut = some z → s.outOfService = true → NoRestart s →
    exec c s = .next (answered s (clockedOut z [4]))) ∧
    (∀ s : State, TakesEvents s →
      (∀ kind z, exec (.unknownEventKind ⟨kind, z⟩) s = .next (answered s (clockedOut z [2]))) ∧
      (∀ (c : Instr) (n z : Nat), c.namesPosition = some n → c.clocksOut = some z → 48 ≤ n →
        exec c s = .next (answered s (clockedOut z [2]))) ∧
      ∀ (p : Position) (r z : Nat), 14 ≤ r →
        exec (.agentNotReady p.val ⟨r, z⟩) s = .next (answered s (clockedOut z [2]))) ∧
    ∀ (answer : List Byte) (z : Nat),
      (z ≤ answer.length → clockedOut z answer <+: answer ∧ (clockedOut z answer).length = z) ∧
      (answer.length ≤ z → clockedOut z answer = answer ++ List.replicate (z - answer.length) 0)

/-! ### Agent events (R5 to R12) -/

/-- AGENT_LOGIN (R5). -/
def Obligations.LoginStoresTheMemberships : Prop :=
  ∀ (s : State) (p : Position) (ms : List (Nat × Nat)) (z : Nat), TakesEvents s →
    (¬ LoginInRange s ms → exec (.agentLogin p.val ⟨ms, z⟩) s = .next (answered s (clockedOut z [2]))) ∧
    (LoginInRange s ms →
      ((s.agent p).state ≠ .loggedOut → exec (.agentLogin p.val ⟨ms, z⟩) s = .next (answered s (clockedOut z [1]))) ∧
      ∀ list : List Membership, list.map (fun m => (m.group.val, m.proficiency)) = ms →
        (s.agent p).state = .loggedOut →
        exec (.agentLogin p.val ⟨ms, z⟩) s =
          .next (attend s { s with
            agents := alter s.agents p fun a =>
              { a with
                state := .notReady 0, members := list, talkS := 0, extensionUsed := false, busyCur := 0, busyPrev := 0
                debtCur := 0, debtPrev := 0, changed := true, deferred := false }
            port := { s.port with transaction := .idle, out := (clockedOut z [0]), waits := s.port.waits.filter fun w => w ≠ .rona p } }))

/-- AGENT_LOGOUT (R12): a wrap is completed first, a claim record removed first; the figures keep their values. -/
def Obligations.LogoutEndsTheSession : Prop :=
  ∀ (s : State) (p : Position) (z : Nat), TakesEvents s →
    ∃ gone : State → State, (∀ u, gone u =
        { enters p .loggedOut u with
          agents := alter u.agents p fun a => { a with state := .loggedOut, members := [], changed := true, deferred := false } }) ∧
      match (s.agent p).state with
      | .notReady _ | .ready _ => exec (.agentLogout ⟨p.val, z⟩) s = .next (attend s (answered (gone s) (clockedOut z [0])))
      | .claiming _ =>
        exec (.agentLogout ⟨p.val, z⟩) s =
          .next (attend s (answered (gone
            { s with exch := { s.exch with claims := s.exch.claims.filter fun r => r.position ≠ p } }) (clockedOut z [0])))
      | .wrap w _ | .wrapOver w _ =>
        exec (.agentLogout ⟨p.val, z⟩) s = .next (attend s (answered (gone (wrapCompleted p w s)) (clockedOut z [0])))
      | .loggedOut | .alerting .. | .talking _ => exec (.agentLogout ⟨p.val, z⟩) s = .next (answered s (clockedOut z [1]))

/-- AGENT_READY (R6): READY now, with a full attempt handed on; no change in READY and CLAIMING. -/
def Obligations.ReadyMakesTheAgentAvailable : Prop :=
  ∀ (s : State) (p : Position) (z : Nat), TakesEvents s →
    match (s.agent p).state with
    | .notReady _ =>
      exec (.agentReady ⟨p.val, z⟩) s =
        .next (attend s ((attemptAgent true p (entersReady p s.now (raised s))).drive (clockedOut z [0])))
    | .wrap w _ | .wrapOver w _ =>
      exec (.agentReady ⟨p.val, z⟩) s =
        .next (attend s ((attemptAgent true p (entersReady p s.now (wrapCompleted p w (raised s)))).drive (clockedOut z [0])))
    | .ready _ | .claiming _ => exec (.agentReady ⟨p.val, z⟩) s = .next (answered s (clockedOut z [0]))
    | .loggedOut | .alerting .. | .talking _ => exec (.agentReady ⟨p.val, z⟩) s = .next (answered s (clockedOut z [1]))

/-- AGENT_NOT_READY with a reason 0..13 (R7). The ALERTING case ends as a RONA does, with the given reason
(`AlertReleaseIsTheRona`). -/
def Obligations.NotReadyTakesTheReason : Prop :=
  ∀ (s : State) (p : Position) (r z : Nat), TakesEvents s → r ≤ 13 →
    match (s.agent p).state with
    | .ready _ => exec (.agentNotReady p.val ⟨r, z⟩) s = .next (attend s (answered (enters p (.notReady r) s) (clockedOut z [0])))
    | .claiming _ =>
      exec (.agentNotReady p.val ⟨r, z⟩) s =
        .next (attend s (answered (enters p (.notReady r)
          { s with exch := { s.exch with claims := s.exch.claims.filter fun x => x.position ≠ p } }) (clockedOut z [0])))
    | .wrap w _ | .wrapOver w _ =>
      exec (.agentNotReady p.val ⟨r, z⟩) s = .next (attend s (answered (enters p (.notReady r) (wrapCompleted p w s)) (clockedOut z [0])))
    | .alerting _ b _ =>
      if s.free < (if b.isLocal = true then 2 else 1) then exec (.agentNotReady p.val ⟨r, z⟩) s = .next (answered s (clockedOut z [3]))
      else exec (.agentNotReady p.val ⟨r, z⟩) s = .next (attend s ((releaseAlert p b r (raised s)).drive (clockedOut z [0])))
    | .notReady _ | .loggedOut | .talking _ => exec (.agentNotReady p.val ⟨r, z⟩) s = .next (answered s (clockedOut z [1]))

/-- AGENT_ANSWER (R8, R155): TALKING, one call answered; a local call is connected, a remote one reported. A RONA that leaves the
room-wait list so lets the waiters that now fit be served, after the rest of the event (R169; log entry 47). -/
def Obligations.AnswerConnectsTheCall : Prop :=
  ∀ (s : State) (p : Position) (z : Nat), TakesEvents s →
    ∃ talking : Binding → State, (∀ b, talking b =
        { enters p (.talking b) (raised s) with
          agents := alter s.agents p fun a =>
            { a with
              state := .talking b, talkS := 0, changed := true, deferred := false
              counts := { a.counts with answered := min 65535 (a.counts.answered + 1) } } }) ∧
      match (s.agent p).state with
      | .alerting _ b _ =>
        if b.isLocal = true then
          exec (.agentAnswer ⟨p.val, z⟩) s = .next (attend s
            ((serveWaiters 33 (if (s.alertedCall p b).isSome = true then connect b.ref.slot (talking b) else talking b)).drive
              (clockedOut z [0])))
        else
          exec (.agentAnswer ⟨p.val, z⟩) s = .next (attend s
            ((serveWaiters 33 (State.reply
              { talking b with
                counts := alter s.counts b.group fun n => { n with takenFromPeers := min 65535 (n.takenFromPeers + 1) } }
              b.ref.home (.answered b.ref p))).drive (clockedOut z [0])))
      | .talking _ => exec (.agentAnswer ⟨p.val, z⟩) s = .next (answered s (clockedOut z [0]))
      | .loggedOut | .notReady _ | .ready _ | .claiming _ | .wrap .. | .wrapOver .. =>
        exec (.agentAnswer ⟨p.val, z⟩) s = .next (answered s (clockedOut z [1]))

/-- AGENT_CLEAR (R9): the wrap starts under the bound group's budget; a budget of 0 gives READY with the wrap
completed in an auto-ready group, and WRAP_OVER in any other. -/
def Obligations.ClearStartsTheWrap : Prop :=
  ∀ (s : State) (p : Position) (z : Nat), TakesEvents s →
    (∀ b, (s.agent p).state = .talking b →
      ∃ u : State, u = { s with agents := alter s.agents p fun a => { a with extensionUsed := false } } ∧
        (0 < (s.groupRec b.group).wrapBudget →
          exec (.agentClear ⟨p.val, z⟩) s = .next (attend s
            (answered (enters p (.wrap ⟨b.group, 0, 0⟩ (s.now + 10 * (s.groupRec b.group).wrapBudget)) u) (clockedOut z [0])))) ∧
        ((s.groupRec b.group).wrapBudget = 0 → (s.groupRec b.group).autoReady = true →
          exec (.agentClear ⟨p.val, z⟩) s = .next (attend s
            ((attemptAgent true p (entersReady p s.now (wrapCompleted p ⟨b.group, 0, 0⟩ (raised u)))).drive (clockedOut z [0])))) ∧
        ((s.groupRec b.group).wrapBudget = 0 → (s.groupRec b.group).autoReady = false →
          exec (.agentClear ⟨p.val, z⟩) s = .next (attend s
            (answered (enters p (.wrapOver ⟨b.group, 0, 0⟩ s.now) u) (clockedOut z [0]))))) ∧
    ((∀ b, (s.agent p).state ≠ .talking b) → exec (.agentClear ⟨p.val, z⟩) s = .next (answered s (clockedOut z [1])))

/-- WRAP_DONE (R10). -/
def Obligations.WrapDoneMakesTheAgentReady : Prop :=
  ∀ (s : State) (p : Position) (z : Nat), TakesEvents s →
    match (s.agent p).state with
    | .wrap w _ | .wrapOver w _ =>
      exec (.wrapDone ⟨p.val, z⟩) s =
        .next (attend s ((attemptAgent true p (entersReady p s.now (wrapCompleted p w (raised s)))).drive (clockedOut z [0])))
    | .loggedOut | .notReady _ | .ready _ | .claiming _ | .alerting .. | .talking _ =>
      exec (.wrapDone ⟨p.val, z⟩) s = .next (answered s (clockedOut z [1]))

/-- WRAP_EXTEND (R11): once a wrap; in WRAP no change mark is set. -/
def Obligations.WrapExtendIsSpentOnce : Prop :=
  ∀ (s : State) (p : Position) (z : Nat), TakesEvents s →
    ((s.agent p).extensionUsed = true ∨ (s.agent p).state.work = none →
      exec (.wrapExtend ⟨p.val, z⟩) s = .next (answered s (clockedOut z [1]))) ∧
    ((s.agent p).extensionUsed = false →
      ∃ u : State, u = { s with agents := alter s.agents p fun a => { a with extensionUsed := true } } ∧
        (∀ w e, (s.agent p).state = .wrap w e →
          exec (.wrapExtend ⟨p.val, z⟩) s =
            .next (answered { s with
              agents := alter s.agents p fun a =>
                { a with extensionUsed := true, state := .wrap w (e + 10 * (s.groupRec w.group).extension) } } (clockedOut z [0]))) ∧
        ∀ w t, (s.agent p).state = .wrapOver w t →
          (0 < (s.groupRec w.group).extension →
            exec (.wrapExtend ⟨p.val, z⟩) s = .next (attend s
              (answered (enters p (.wrap w (s.now + 10 * (s.groupRec w.group).extension)) u) (clockedOut z [0])))) ∧
          ((s.groupRec w.group).extension = 0 → exec (.wrapExtend ⟨p.val, z⟩) s = .next (answered u (clockedOut z [0]))))

/-! ### Alerts that end unanswered (R7, R16, R40, R169) -/

/-- What a record ALERTING on a binding becomes when the alert ends as a RONA does: NOT_READY with the reason, and one
more under RONA; WITHDRAW; a local call back to WAITING with UNROUTE, then diverted or retried; a remote one reported
with RETURNED. ALERT_DEADLINE and RONA take it with reason 15 when the room is there. That RONA may be commanded, and that
neither command takes an alert out of its turn, is the model's choice (log entries 2, 29 and 30). -/
def Obligations.AlertReleaseIsTheRona : Prop :=
  ∀ (s : State) (p : Position) (since d : Nat) (b : Binding), (s.agent p).state = .alerting since b d →
    (∀ r : Nat, (if b.isLocal = true then 2 else 1) ≤ s.free →
      ∃ left : State, left = placed [.withdraw p]
          { enters p (.notReady r) s with
            agents := alter s.agents p fun a =>
              { a with
                state := .notReady r, changed := true, deferred := false
                counts := { a.counts with rona := min 65535 (a.counts.rona + 1) } } } ∧
        (b.isLocal = false → releaseAlert p b r s = left.reply b.ref.home (.returned b.ref p)) ∧
        (b.isLocal = true → s.alertedCall p b = none → releaseAlert p b r s = left) ∧
        ∀ k, b.isLocal = true → s.alertedCall p b = some k →
          ∃ back : State, back = placed [.unroute k.trunk] (unawaited (.watch b.ref.slot)
              (groupCounts k.group (fun n => { n with ronaReturns := min 65535 (n.ronaReturns + 1) })
                (callBecomes b.ref.slot (fun k => { k with state := .waiting }) left))) ∧
            releaseAlert p b r s =
              if k.divertPending = true then divertDue b.ref.slot back else attemptCall b.ref.slot back) ∧
    (s.now < d → exec (.alertDeadline p) s = .next s ∧ exec (.rona p) s = .next s) ∧
    (d ≤ s.now → s.free < (if b.isLocal = true then 2 else 1) →
      exec (.alertDeadline p) s = .next (awaited (.rona p) s) ∧ exec (.rona p) s = .next s) ∧
    (d ≤ s.now → (if b.isLocal = true then 2 else 1) ≤ s.free →
      ∀ c ∈ [Instr.alertDeadline p, Instr.rona p], exec c s =
        if waitsBehind s (.rona p) then .next s
        else .next (attend s (releaseAlert p b 15 (unawaited (.rona p) s))))

/-! ### Trunk events (R30 to R36) -/

/-- TRUNK_SEIZE refused, by the first check that fails (R30); and taken: the lowest free slot is occupied, the call joins
its queue behind the last of its class or a lower one, and is counted; its treatment starts and one attempt is made; the
slot follows TAKEN (R31, R32, R37). -/
def Obligations.SeizeRecordsTheCall : Prop :=
  (∀ (s : State) (t : Trunk) (g p z : Nat) (tag : Half), TakesEvents s →
    ((∀ (G : Group) (P : Fin 4), G.val = g → P.val = p → s.defines G = false) →
      exec (.trunkSeize t g p ⟨tag, z⟩) s = .next (answered s (clockedOut z [2]))) ∧
    ∀ (G : Group) (P : Fin 4), G.val = g → P.val = p → s.defines G = true →
      ((∃ c k, s.callAt c = some k ∧ k.trunk = t) →
        exec (.trunkSeize t g p ⟨tag, z⟩) s = .next (answered s (clockedOut z [1]))) ∧
      ((∀ c k, s.callAt c = some k → k.trunk ≠ t) → (∀ c, s.callAt c ≠ none) →
        exec (.trunkSeize t g p ⟨tag, z⟩) s = .next (answered s (clockedOut z [3])))) ∧
  ∀ (s : State) (t : Trunk) (G : Group) (P : Fin 4) (tag : Half) (c : Slot) (z : Nat), TakesEvents s → QueuesAgree s →
    s.defines G = true → (∀ d k, s.callAt d = some k → k.trunk ≠ t) → s.callAt c = none →
    (∀ d, d < c → s.callAt d ≠ none) →
    ∃ (ahead behind : List Slot) (u : State), s.queue G = ahead ++ behind ∧
      (∀ d ∈ ahead, ∃ k, s.callAt d = some k ∧ k.priority ≤ P) ∧
      (∀ d ∈ behind, ∃ k, s.callAt d = some k ∧ P < k.priority) ∧
      u = { raised s with
            calls := alter s.calls c fun r =>
              ⟨r.gen + 1, false, some ⟨t, G, P, tag, s.now, .waiting,
                if (s.groupRec G).t1 = 0 then if (s.groupRec G).t2 = 0 then 2 else 1 else 0,
                Vector.replicate 15 false, false, none⟩⟩
            queues := alter s.queues G fun _ => ahead ++ c :: behind
            counts := alter s.counts G fun n => { n with offeredIn := min 65535 (n.offeredIn + 1) } } ∧
      exec (.trunkSeize t G.val P.val ⟨tag, z⟩) s =
        .next (attend s ((attemptCall c (startTreatment c u)).drive (clockedOut z [0, BitVec.ofNat 8 c.val])))

/-- TRUNK_ANSWERED (R30, R33, R14). A RONA that leaves the room-wait list so lets the waiters that now fit be served, after the
rest of the event (R169; log entry 47). -/
def Obligations.TrunkAnsweredConnectsTheCall : Prop :=
  ∀ (s : State) (t : Trunk) (z : Nat), TakesEvents s →
    ((∀ c k, s.callAt c = some k → k.trunk ≠ t) → exec (.trunkAnswered ⟨t, z⟩) s = .next (answered s (clockedOut z [1]))) ∧
    ∀ c k, Holds s t c k →
      match k.state with
      | .waiting | .offered .. => exec (.trunkAnswered ⟨t, z⟩) s = .next (answered s (clockedOut z [1]))
      | .connected => exec (.trunkAnswered ⟨t, z⟩) s = .next (answered s (clockedOut z [0]))
      | .alertingRemote .. =>
        exec (.trunkAnswered ⟨t, z⟩) s = .next (attend s ((serveWaiters 33 (connect c (raised s))).drive (clockedOut z [0])))
      | .alertingLocal p =>
        (∀ since b d, (s.agent p).state = .alerting since b d → b.isLocal = true → s.refOf c = some b.ref →
          exec (.trunkAnswered ⟨t, z⟩) s = .next (attend s ((serveWaiters 33 (connect c
            { enters p (.talking b) (raised s) with
              agents := alter s.agents p fun a =>
                { a with
                  state := .talking b, talkS := 0, changed := true, deferred := false
                  counts := { a.counts with answered := min 65535 (a.counts.answered + 1) } } })).drive (clockedOut z [0])))) ∧
        ((∀ since b d, (s.agent p).state = .alerting since b d → ¬(b.isLocal = true ∧ s.refOf c = some b.ref)) →
          exec (.trunkAnswered ⟨t, z⟩) s = .next (attend s ((serveWaiters 33 (connect c (raised s))).drive (clockedOut z [0]))))

/-- TRUNK_RELEASE (R30, R35): an alerting local agent is unbound, a peer is sent CANCEL; the record is then freed. -/
def Obligations.TrunkReleaseFreesTheRecord : Prop :=
  ∀ (s : State) (t : Trunk) (z : Nat), TakesEvents s →
    ((∀ c k, s.callAt c = some k → k.trunk ≠ t) → exec (.trunkRelease ⟨t, z⟩) s = .next (answered s (clockedOut z [1]))) ∧
    ∀ c k, Holds s t c k →
      ∃ u : State, u = groupCounts k.group (fun n => { n with abandoned := min 65535 (n.abandoned + 1) }) (raised s) ∧
        match k.state with
        | .connected => exec (.trunkRelease ⟨t, z⟩) s = .next (attend s ((freeCall c (raised s)).drive (clockedOut z [0])))
        | .waiting => exec (.trunkRelease ⟨t, z⟩) s = .next (attend s ((freeCall c u).drive (clockedOut z [0])))
        | .offered q _ _ | .alertingRemote q _ _ =>
          ∀ me, s.bus.id = some me →
            exec (.trunkRelease ⟨t, z⟩) s =
              .next (attend s ((freeCall c (u.reply q (.cancel ⟨me, c, (s.slotRec c).gen⟩))).drive (clockedOut z [0])))
        | .alertingLocal p =>
          (s.free = 0 → exec (.trunkRelease ⟨t, z⟩) s = .next (answered s (clockedOut z [3]))) ∧
          ∀ r since b d, 0 < s.free → s.refOf c = some r → BindingsAgree s →
            (s.agent p).state = .alerting since b d → b.ref = r →
            exec (.trunkRelease ⟨t, z⟩) s = .next (attend s ((freeCall c
              (attemptAgent false p (entersReady p since (placed [.withdraw p] u)))).drive (clockedOut z [0])))

/-- What CONNECTED and freeing do to the record, its queue, its treatment and what waits for it (R34, R36, R46). The end of a
treatment takes the call off the hold list, releases its voice and stops that voice's stream, takes the call off its bed, whose
stream stops with the last listener, and leaves no context and no LISTEN (R93, R99, R100). -/
def Obligations.ConnectingAndFreeingEndTheWait : Prop :=
  (∀ (s : State) (c : Slot) (k : Call), s.callAt c = some k →
    ∃ ended : State,
      ended = endTreatment c { s with queues := alter s.queues k.group fun q => q.filter fun d => d ≠ c } ∧
      connect c s =
        groupCounts k.group
          (fun n =>
            match k.state with
            | .alertingLocal _ => { n with answeredLocal := min 65535 (n.answeredLocal + 1) }
            | .alertingRemote .. => { n with answeredByPeers := min 65535 (n.answeredByPeers + 1) }
            | .waiting | .offered .. | .connected => n)
          (unawaited (.watch c) (callBecomesDeferred c false
            (fun k => { k with state := .connected, declined := Vector.replicate 15 false, divertPending := false }) ended)) ∧
      freeCall c s =
        unawaited (.divert c) (unawaited (.watch c)
          { ended with calls := alter ended.calls c fun r => ⟨r.gen, false, none⟩ })) ∧
  (∀ (s : State) (c : Slot),
    (s.contextAt c = none → endTreatment c s = s) ∧
    ∀ x, s.contextAt c = some x → endTreatment c s =
      callBecomes c (fun k => { k with context := none }) (leaveBed x.heard (releaseVoice c
        { s with treat := { s.treat with holdList := s.treat.holdList.filter fun d => d ≠ c } }))) ∧
  (∀ (s : State) (c : Slot),
    ((∀ v : Voice, s.treat.voices[v] ≠ some c) → releaseVoice c s = s) ∧
    ∀ v n, s.treat.voices[v] = some c → (∀ w, w < v → s.treat.voices[w] ≠ some c) → (n : StreamId).val = v.val + 4 →
      releaseVoice c s = stopStream n (voiceHeld v none s)) ∧
  ∀ (s : State) (b : Bed) (n : StreamId), n.val = b.val →
    leaveBed (.bed b) s = (if s.treat.listeners[b] = 1 then stopStream n (listenersBecome b (fun l => l - 1) s)
      else listenersBecome b (fun l => l - 1) s) ∧
    ∀ h : HeardOn, (∀ b, h ≠ .bed b) → leaveBed h s = s

/-! ### Call deadlines (R41, R43, R44) -/

/-- A tier deadline raises the tier of a call below it, empties the declined-by set and hands on one attempt (R41). A
max-wait deadline sets divert pending, and a WAITING call's divert is then due: taken, or waiting for room; DIVERT takes
a due divert (R43, R44, R45). That they change nothing when they are not due, and DIVERT nothing out of turn, is the model's
choice (log entries 2, 29 and 30). -/
def Obligations.CallDeadlinesAct : Prop :=
  (∀ (s : State) (c : Slot) (t : TierStep),
    (∀ k, s.callAt c = some k → k.state ≠ .connected → k.arrival + 10 * tierTime (s.groupRec k.group) t ≤ s.now →
      k.tier < raisedTier t →
      ∃ u : State, u = callBecomes c (fun k => { k with tier := raisedTier t, declined := Vector.replicate 15 false }) s ∧
        (k.state = .waiting → k.divertPending = false →
          exec (.tierDeadline c t) s = .next (attend s (attemptCall c u))) ∧
        (¬(k.state = .waiting ∧ k.divertPending = false) → exec (.tierDeadline c t) s = .next u)) ∧
    ((∀ k, s.callAt c = some k → k.state = .connected ∨ raisedTier t ≤ k.tier ∨
        s.now < k.arrival + 10 * tierTime (s.groupRec k.group) t) →
      exec (.tierDeadline c t) s = .next s)) ∧
  ∀ (s : State) (c : Slot) (k : Call), s.callAt c = some k →
    ∃ taken : State → State,
      (∀ u, taken u = freeCall c (groupCounts k.group (fun n => { n with diverted := min 65535 (n.diverted + 1) })
        (placed [.divert k.trunk (s.groupRec k.group).divertCode] u))) ∧
      (0 < (s.groupRec k.group).maxWait → k.arrival + 10 * (s.groupRec k.group).maxWait ≤ s.now →
        k.divertPending = false → k.state ≠ .connected →
        (k.state ≠ .waiting →
          exec (.maxWaitDeadline c) s = .next (callBecomes c (fun k => { k with divertPending := true }) s)) ∧
        (k.state = .waiting →
          exec (.maxWaitDeadline c) s =
            if s.free = 0 then
              .next (awaited (.divert c) (callBecomesDeferred c false (fun k => { k with divertPending := true }) s))
            else .next (attend s (taken (callBecomesDeferred c false (fun k => { k with divertPending := true }) s))))) ∧
      ((s.groupRec k.group).maxWait = 0 ∨ s.now < k.arrival + 10 * (s.groupRec k.group).maxWait ∨
          k.divertPending = true ∨ k.state = .connected →
        exec (.maxWaitDeadline c) s = .next s) ∧
      (k.state = .waiting → k.divertPending = true → 0 < s.free → ¬waitsBehind s (.divert c) →
        exec (.divert c) s = .next (attend s (taken (unawaited (.divert c) s)))) ∧
      (¬(k.state = .waiting ∧ k.divertPending = true ∧ 0 < s.free) ∨ waitsBehind s (.divert c) →
        exec (.divert c) s = .next s)

/-! ### Wrap deadlines and seconds (R18, R19, R21, R22) -/

/-- WRAP_EXPIRY and GRACE_DEADLINE (R18, R19). That they change nothing before their time is the model's choice (log
entry 2). -/
def Obligations.WrapDeadlinesEndTheWrap : Prop :=
  ∀ (s : State) (p : Position),
    (∀ w e, (s.agent p).state = .wrap w e →
      (s.now < e → exec (.wrapExpiry p) s = .next s) ∧
      (e ≤ s.now → (s.groupRec w.group).autoReady = true →
        exec (.wrapExpiry p) s =
          .next (attend s (attemptAgent true p (entersReady p s.now (wrapCompleted p w s))))) ∧
      (e ≤ s.now → (s.groupRec w.group).autoReady = false →
        exec (.wrapExpiry p) s = .next (attend s (enters p (.wrapOver w s.now) s)))) ∧
    (∀ w t, (s.agent p).state = .wrapOver w t →
      exec (.graceDeadline p) s =
        if 0 < (s.groupRec w.group).graceLimit ∧ t + 10 * (s.groupRec w.group).graceLimit ≤ s.now then
          .next (attend s (enters p (.notReady 14) (wrapCompleted p w s)))
        else .next s) ∧
    ((∀ w e, (s.agent p).state ≠ .wrap w e) → exec (.wrapExpiry p) s = .next s) ∧
    ((∀ w t, (s.agent p).state ≠ .wrapOver w t) → exec (.graceDeadline p) s = .next s)

/-- A second boundary credits every record by its state, and one that brings the window-half count to H then rolls
every record and starts the count again (R21, R22, R113). With no boundary declared nothing changes (the model's choice, log
entries 5 and 6). -/
def Obligations.SecondBoundaryCreditsEveryRecord : Prop :=
  ∀ s : State,
    (s.time.secondsDue = 0 → exec .secondBoundary s = .next s ∧ exec .windowHalfBoundary s = .next s) ∧
    (0 < s.time.secondsDue → s.time.windowCount + 1 ≠ s.conf.windowHalf →
      exec .windowHalfBoundary s = .next s ∧
      exec .secondBoundary s =
        .next { s with
          agents := Vector.ofFn fun p => creditOf s.agents[p]
          time := { s.time with secondsDue := s.time.secondsDue - 1, windowCount := s.time.windowCount + 1 } }) ∧
    (0 < s.time.secondsDue → s.time.windowCount + 1 = s.conf.windowHalf →
      exec .windowHalfBoundary s = exec .secondBoundary s ∧
      exec .secondBoundary s =
        .next { s with
          agents := Vector.ofFn fun p =>
            { creditOf s.agents[p] with
              busyPrev := (creditOf s.agents[p]).busyCur, busyCur := 0
              debtPrev := (creditOf s.agents[p]).debtCur, debtCur := 0 }
          time := { s.time with secondsDue := s.time.secondsDue - 1, windowCount := 0 } })

/-! ### The Timebase and the Summary Builder (R113 to R115, R142 to R146) -/

/-- A frame counts, and the 800th declares a decisecond while the Timebase runs. Sync gives frames and the return of
sync; without it the fallback gives them; a loss of sync ends the driving of the highway (R113, R114, R115). The model's
choices: FALLBACK_FRAME with sync present changes nothing (log entry 2), and without it is taken whatever the clock-loss flag
(log entry 41); SYNC_RETURNS with sync present is a frame and HIGHWAY_FRAME without it the return (log entry 35); the count
declares deciseconds in dsDue (log entry 5) and runs while the Timebase does not (log entry 7); frameCursor is the model's own
(log entry 26); and what the slots show from the frame's beginning (log entry 27). -/
def Obligations.FramesAreCounted : Prop :=
  ∀ s : State, ∃ counted : Timebase → State,
    (∀ tb, counted tb = { s with
      time := if tb.frames + 1 = 800 then
          { tb with frames := 0, dsDue := if tb.running = true then tb.dsDue + 1 else tb.dsDue }
        else { tb with frames := tb.frames + 1 }
      clips := { s.clips with frameCursor := 0 }
      highway := Vector.ofFn fun i : Fin 32 =>
        if s.outOfService = false ∧ tb.syncPresent = true ∧ i.val ≤ 16 then some s.conf.silence else none }) ∧
    exec .highwayFrame s = .next (counted { s.time with syncPresent := true }) ∧
    exec .syncReturns s = .next (counted { s.time with syncPresent := true }) ∧
    (s.time.syncPresent = true → exec .fallbackFrame s = .next s) ∧
    (s.time.syncPresent = false → exec .fallbackFrame s = .next (counted s.time)) ∧
    exec .syncLost s = .next (attend s { s with
      time := { s.time with syncPresent := false, clockLoss := true }
      highway := Vector.replicate 32 none })

/-- A declared decisecond advances station time, declares a second at each multiple of 10, and gives the Summary
Builder its three steps in JOINING and ACTIVE (R113, R145). HOLD_DEADLINE is step 1 alone and PERIOD_DEADLINE steps
1 and 3 (the model's choice, log entries 5 and 18). -/
def Obligations.DecisecondTakesTheLadder : Prop :=
  (∀ s : State, s.time.dsDue = 0 → exec .decisecond s = .next s) ∧
    (∀ s : State, 0 < s.time.dsDue → ∃ u : State,
      u = { s with time := { s.time with
        ds := if s.time.ds < 4294967295 then s.time.ds + 1 else s.time.ds
        dsDue := s.time.dsDue - 1
        secondsDue := if s.time.ds < 4294967295 ∧ (s.time.ds + 1) % 10 = 0 then s.time.secondsDue + 1
          else s.time.secondsDue } } ∧
      (s.building = false → exec .decisecond s = .next u) ∧
      (s.building = true → ∃ d t : State, Downshifted u d ∧ exec .decisecond s = .next t ∧
        (significantChange d = true → (∀ e, d.builder.lastPlacement = some e → e < d.now) →
          t = { summaryPlaced d with builder := { d.builder with
            cadence := .brisk, hold := some (d.now + d.conf.briskHold), period := some (d.now + d.conf.brisk)
            lastPlacement := some d.now } }) ∧
        (¬(significantChange d = true ∧ ∀ e, d.builder.lastPlacement = some e → e < d.now) → PeriodTaken d t))) ∧
    (∀ s : State, s.building = false → exec .holdDeadline s = .next s ∧ exec .periodDeadline s = .next s) ∧
    ∀ s : State, s.building = true → ∃ d t : State, Downshifted s d ∧ exec .holdDeadline s = .next d ∧
      PeriodTaken d t ∧ exec .periodDeadline s = .next t

/-! ### The streams (R104 to R112) -/

/-- Each stream's output in a frame, once: nothing of an inactive or unstarted stream; the silence code and an underrun
at level 0; else its oldest sample, a bed going on to its next clip and a voice's end raising clip-finished (R110, R111).
The cursor that takes each stream once is the model's (log entry 26). -/
def Obligations.StreamsPlayEachFrame : Prop :=
  ∀ (s : State) (n : StreamId),
    (n.val < s.clips.frameCursor → exec (.streamFrameOutput n) s = .next s) ∧
    (s.clips.frameCursor ≤ n.val → ∃ (sent : Stream → Byte → State) (refilled : State → State),
      (∀ x b, sent x b = { s with
        clips := { s.clips with frameCursor := n.val + 1, streams := alter s.clips.streams n fun _ => x }
        highway := if s.outOfService = false ∧ s.time.syncPresent = true then
          alter s.highway ⟨n.val, by omega⟩ fun _ => some b else s.highway }) ∧
      (∀ u, refilled u = if (u.stream n).fifo.length = 32 then fetchTest u else u) ∧
      ((s.stream n).playing = none ∨ (s.stream n).started = false →
        exec (.streamFrameOutput n) s = .next { s with clips := { s.clips with frameCursor := n.val + 1 } }) ∧
      ∀ p, (s.stream n).playing = some p → (s.stream n).started = true →
        ((s.stream n).fifo = [] →
          exec (.streamFrameOutput n) s =
            .next (sent { s.stream n with underruns := min 65535 ((s.stream n).underruns + 1) } s.conf.silence)) ∧
        ∀ b rest, (s.stream n).fifo = b :: rest →
          (2 ≤ p.samplesLeft →
            exec (.streamFrameOutput n) s = .next (refilled (sent
              { s.stream n with playing := some { p with samplesLeft := p.samplesLeft - 1 }, fifo := rest } b))) ∧
          (∀ i j k, p.samplesLeft = 1 → p.indexes = some (i, j) →
            k = (if i + 1 < (s.playlistOf n).length then i + 1 else 0) →
            exec (.streamFrameOutput n) s = .next (refilled (sent
              { s.stream n with
                playing := some { p with
                  clip := (s.playlistOf n).getD k 0, indexes := some (k, j)
                  samplesLeft := s.clipLength ((s.playlistOf n).getD k 0) }
                fifo := rest } b))) ∧
          ∀ v : Voice, p.samplesLeft = 1 → p.indexes = none → v.val + 4 = n.val →
            exec (.streamFrameOutput n) s = .next (attend s (clipFinished v (refilled (sent
              { s.stream n with playing := none, fifo := rest, started := false } b)))))

/-- An arriving read joins its stream's FIFO when the stream is still in the epoch of the grant, and is discarded
otherwise; a stream starts at a level of 32 or with its clip wholly granted. The arbiter then serves the first stream
after the last served that needs a fetch (R107, R108, R109, R111). A stop flushes an active stream, and a start sets it to
its clip with the FIFO empty and has the arbiter test; each begins an epoch (R104, R105, R106). That the fetch index may so run
more than one entry ahead of the play index is the model's choice (log entry 49). -/
def Obligations.ReadsFillTheFifosInTurn : Prop :=
  (∀ (s : State) (bytes : Vector Byte 32),
    (s.clips.inFlight = none → exec (.readArrives bytes) s = .next s) ∧
    ∀ r, s.clips.inFlight = some r →
      (∀ p, (s.stream r.stream).playing = some p → (s.stream r.stream).epoch = r.epoch →
        exec (.readArrives bytes) s = .next (fetchTest { s with clips := { s.clips with
          inFlight := none
          streams := alter s.clips.streams r.stream fun x =>
            { x with
              fifo := x.fifo ++ bytes.toList.take r.count
              started := x.started || decide (32 ≤ (x.fifo ++ bytes.toList.take r.count).length) ||
                decide (p.bytesLeft = 0) } } })) ∧
      ((s.stream r.stream).playing = none ∨ (s.stream r.stream).epoch ≠ r.epoch →
        exec (.readArrives bytes) s = .next (fetchTest { s with clips := { s.clips with inFlight := none } }))) ∧
    (∀ (s : State) (n : StreamId), ∃ become : Stream → State,
      (∀ x, become x = { s with clips := { s.clips with streams := alter s.clips.streams n fun _ => x } }) ∧
      ((s.stream n).playing = none → stopStream n s = s) ∧
      ((s.stream n).playing ≠ none →
        stopStream n s = become ⟨none, [], false, (s.stream n).underruns, (s.stream n).epoch + 1⟩) ∧
      ∀ clip : Nat, startStream n clip s = fetchTest (become
        ⟨some ⟨clip, if n.val < 4 then some (0, 0) else none, s.clipStart clip, s.clipLength clip, s.clipLength clip⟩,
          [], false, (s.stream n).underruns, (s.stream n).epoch + if (s.stream n).playing = none then 1 else 2⟩)) ∧
    (∀ s : State, s.clips.inFlight ≠ none ∨ s.bus.station = .starting ∨ (∀ n, ¬ NeedsFetch s n) → fetchTest s = s) ∧
    ∀ (s : State) (k : Nat) (n : StreamId) (p : Playing), s.clips.inFlight = none → s.bus.station ≠ .starting →
      k < 16 → n.val = (s.clips.lastServed.val + 1 + k) % 16 → NeedsFetch s n → (s.stream n).playing = some p →
      (∀ j m, j < k → (m : StreamId).val = (s.clips.lastServed.val + 1 + j) % 16 → ¬ NeedsFetch s m) →
      ∃ count next : Nat, count = min 32 p.bytesLeft ∧
        (∀ i j, p.indexes = some (i, j) → next = if j + 1 < (s.playlistOf n).length then j + 1 else 0) ∧
        fetchTest s = { s with clips := { s.clips with
          lastServed := n
          inFlight := some ⟨n, (s.stream n).epoch, p.nextAddr, count⟩
          streams := alter s.clips.streams n fun x =>
            { x with playing := some (
              match p.indexes with
              | some (i, _) =>
                if p.bytesLeft = count then
                  { p with
                    indexes := some (i, next), nextAddr := s.clipStart ((s.playlistOf n).getD next 0)
                    bytesLeft := s.clipLength ((s.playlistOf n).getD next 0) }
                else { p with nextAddr := p.nextAddr + count, bytesLeft := p.bytesLeft - count }
              | none => { p with nextAddr := p.nextAddr + count, bytesLeft := p.bytesLeft - count }) } } }

/-! ### The Shelf Port's other transactions (R165, R168 to R175) -/

/-- A REPORT is clocked field by field: a field's value is taken at its first bit and its counter cleared at its last;
of an unknown kind or subject every field is a zero byte and nothing is cleared (R170). -/
def Obligations.ReportsAreClockedFieldByField : Prop :=
  (∀ (s : State) (about : ReportOf) (start : Nat), NoRestart s →
    exec (reportInstr about start .opens) s =
      .next { s with port := { s.port with transaction := .report about start none, out := [] } }) ∧
    (∀ (s : State) (about : ReportOf) (start n : Nat), s.port.transaction = .report about n none →
      exec (reportInstr about start .firstBit) s = .next { s with port := { s.port with
        transaction := .report about n (some (reportField s about n)) } }) ∧
    (∀ (s : State) (about : ReportOf) (start n : Nat) (bytes : List Byte),
      s.port.transaction = .report about n (some bytes) →
      exec (reportInstr about start .lastBit) s = .next (clearField about n { s with port := { s.port with
        transaction := .report about (n + 1) none, out := s.port.out ++ bytes } })) ∧
    ∀ (s : State) (kind subject start n : Nat), NoRestart s →
      exec (.reportUnknownKind kind subject start (.through n)) s = .next (answered s (List.replicate n 0)) ∧
      (48 ≤ subject → exec (.reportAgent subject start (.through n)) s = .next (answered s (List.replicate n 0))) ∧
      (16 ≤ subject → exec (.reportGroup subject start (.through n)) s = .next (answered s (List.replicate n 0)))

/-- REPORT AGENT: the twelve fields of R24, the five accumulators cleared as they are read (R24, R170, R171); the code of
each state, the reason, the binding and the primary-group score (11.5). The order of the two bytes of a field and the layout of
the binding are the model's choices (log entries 43 and 46). -/
def Obligations.ReportAgentReadsAndClears : Prop :=
  FieldsAreNumbers ∧
  (∀ t b d r w u, AgentState.loggedOut.code = 0 ∧ (AgentState.notReady r).code = 1 ∧ (AgentState.ready t).code = 2 ∧
    (AgentState.claiming t).code = 3 ∧ (AgentState.alerting t b d).code = 4 ∧ (AgentState.talking b).code = 5 ∧
    (AgentState.wrap w u).code = 6 ∧ (AgentState.wrapOver w u).code = 7) ∧
  (∀ st : AgentState,
    (∀ r, st = .notReady r → st.reasonField = r) ∧ ((∀ r, st ≠ .notReady r) → st.reasonField = 0) ∧
    (∀ t b d, st = .alerting t b d ∨ st = .talking b → (bindingBytes st).map BitVec.toNat =
      [16 * b.ref.home.val + b.ref.gen.val, b.ref.slot.val]) ∧
    ((∀ t b d, st ≠ .alerting t b d ∧ st ≠ .talking b) → (bindingBytes st).map BitVec.toNat = [255, 255])) ∧
  (∀ (s : State) (a : Agent), (a.members = [] → primaryScore s a = 0) ∧
    ∀ m rest, a.members = m :: rest → primaryScore s a = scoreIn s a m.group) ∧
  ∀ (s : State) (p : Position) (start n : Nat), NoRestart s →
    exec (.reportAgent p.val start (.through n)) s = .next { s with
      agents := alter s.agents p fun a => { a with counts :=
        ⟨clearedBy start n 7 a.counts.answered, clearedBy start n 8 a.counts.talk, clearedBy start n 9 a.counts.wrap,
          clearedBy start n 10 a.counts.overrun, clearedBy start n 11 a.counts.rona⟩ }
      port := { s.port with
        transaction := .idle
        out := fieldsFrom
          [[lowByte (s.agent p).state.code], [lowByte (s.agent p).state.reasonField], bindingBytes (s.agent p).state,
            twoBytes (idleInput s.now (s.agent p)), twoBytes (occupancy s (s.agent p)), [lowByte (debtInput (s.agent p))],
            twoBytes (primaryScore s (s.agent p)), twoBytes (s.agent p).counts.answered, twoBytes (s.agent p).counts.talk,
            twoBytes (s.agent p).counts.wrap, twoBytes (s.agent p).counts.overrun, twoBytes (s.agent p).counts.rona]
          start n } }

/-- REPORT GROUP: six figures and the seven accumulators of R46, cleared as they are read (R46, R170, R171). The order of the
two bytes of a field is the model's choice (log entry 43). -/
def Obligations.ReportGroupReadsAndClears : Prop :=
  FieldsAreNumbers ∧
  ∀ (s : State) (g : Group) (start n : Nat), NoRestart s →
    exec (.reportGroup g.val start (.through n)) s = .next { s with
      counts := alter s.counts g fun c =>
        ⟨clearedBy start n 6 c.offeredIn, clearedBy start n 7 c.answeredLocal, clearedBy start n 8 c.answeredByPeers,
          clearedBy start n 9 c.takenFromPeers, clearedBy start n 10 c.abandoned, clearedBy start n 11 c.diverted,
          clearedBy start n 12 c.ronaReturns⟩
      port := { s.port with
        transaction := .idle
        out := fieldsFrom
          [[lowByte (s.queue g).length], [lowByte (peerWaiting s g)], twoBytes (oldestAge s g), [lowByte (readyCount s g)],
            twoBytes s.aht[g], twoBytes (headEwt s g), twoBytes s.counts[g].offeredIn, twoBytes s.counts[g].answeredLocal,
            twoBytes s.counts[g].answeredByPeers, twoBytes s.counts[g].takenFromPeers, twoBytes s.counts[g].abandoned,
            twoBytes s.counts[g].diverted, twoBytes s.counts[g].ronaReturns]
          start n } }

/-- REPORT STATION: four figures and twelve counters, cleared as they are read; the underruns field clears the count of
every stream (R116, R170, R171); the codes of the station states, the isolation causes and the cadences, and bit n of the
present-peer set standing for station n (R128, R139, R142, 11.5). The order of the two bytes of a field is the model's choice
(log entry 43). -/
def Obligations.ReportStationReadsAndClears : Prop :=
  FieldsAreNumbers ∧
  (∀ d, StationState.starting.code = 0 ∧ StationState.unconfigured.code = 1 ∧ (StationState.joining d).code = 2 ∧
    StationState.active.code = 3 ∧ (StationState.busFault d).code = 4 ∧ StationState.duplicateId.code = 4) ∧
  (∀ st : StationState, (st.cause = some .busFault ↔ ∃ d, st = .busFault d) ∧
    (st.cause = some .duplicateId ↔ st = .duplicateId)) ∧
  IsolationCause.busFault.code = 1 ∧ IsolationCause.duplicateId.code = 2 ∧
  Cadence.brisk.code = 0 ∧ Cadence.easy.code = 1 ∧ Cadence.slow.code = 2 ∧
  (∀ (s : State) (n : Nat), (stationBits (presentPeers s)).testBit n = true ↔
    ∃ p : Station, p.val = n ∧ s.peers.rows[p] ≠ none) ∧
  ∀ (s : State) (start n : Nat), NoRestart s →
    exec (.reportStation start (.through n)) s = .next { s with
      bus := { s.bus with
        framesSent := clearedBy start n 4 s.bus.framesSent, framesReceived := clearedBy start n 5 s.bus.framesReceived
        checkErrors := clearedBy start n 6 s.bus.checkErrors, collisions := clearedBy start n 7 s.bus.collisions
        dropped := clearedBy start n 8 s.bus.dropped, repliesLost := clearedBy start n 10 s.bus.repliesLost }
      exch := { s.exch with stale := clearedBy start n 9 s.exch.stale }
      treat := { s.treat with
        shortages := clearedBy start n 11 s.treat.shortages, stalls := clearedBy start n 12 s.treat.stalls }
      clips := { s.clips with streams := Vector.ofFn fun i =>
        { s.clips.streams[i] with underruns := clearedBy start n 13 s.clips.streams[i].underruns } }
      deferrals := clearedBy start n 14 s.deferrals
      load := { s.load with clamped := clearedBy start n 15 s.load.clamped }
      port := { s.port with
        transaction := .idle
        out := fieldsFrom
          [[lowByte s.bus.station.code], [lowByte ((s.bus.station.cause.map IsolationCause.code).getD 0)],
            twoBytes (stationBits (presentPeers s)), [lowByte s.builder.cadence.code], twoBytes s.bus.framesSent,
            twoBytes s.bus.framesReceived, twoBytes s.bus.checkErrors, twoBytes s.bus.collisions, twoBytes s.bus.dropped,
            twoBytes s.exch.stale, twoBytes s.bus.repliesLost, twoBytes s.treat.shortages, twoBytes s.treat.stalls,
            twoBytes (min 65535 (s.clips.streams.toList.map Stream.underruns).sum), twoBytes s.deferrals,
            twoBytes s.load.clamped]
          start n } }

/-- TAKE drives the head directive, EMPTY of an empty queue, and removes it at its last bit; what a removal hands on
ends with no held treatment or no free entry. A rise before the last bit removes nothing (R168, R169, R98). A removal serves
the room waiters from the head of their list while the head's need fits, then makes the retry pass, then resumes held
treatments (R169). The bytes of each directive are those of 11.5, with the order of the caller tag's two bytes the model's choice
(log entry 43). -/
def Obligations.TakeRemovesTheHeadDirective : Prop :=
  (∀ (t : Trunk) (q : Station) (p : Position) (tag : Half) (code : Byte) (slot : Nat),
    directiveBytes none = [0#8] ∧
    (directiveBytes (some (.listen t slot))).map BitVec.toNat = [1, t.val, slot % 256] ∧
    (directiveBytes (some (.route t q p))).map BitVec.toNat = [2, t.val, q.val, p.val] ∧
    (directiveBytes (some (.unroute t))).map BitVec.toNat = [3, t.val] ∧
    (directiveBytes (some (.alert p q tag))).map BitVec.toNat = [4, p.val, q.val, tag.toNat / 256, tag.toNat % 256] ∧
    (directiveBytes (some (.withdraw p))).map BitVec.toNat = [5, p.val] ∧
    (directiveBytes (some (.divert t code))).map BitVec.toNat = [6, t.val, code.toNat]) ∧
  (∀ s : State, NoRestart s →
    exec (.take (.through 0)) s = .next (answered s []) ∧
    exec (.take .opens) s = .next { s with port := { s.port with
      transaction := .take s.port.directives.head? false, out := [] } } ∧
    (s.port.directives = [] → ∀ n,
      exec (.take (.through (n + 1))) s = .next (answered s (List.replicate (n + 1) 0))) ∧
    ∀ d rest n, s.port.directives = d :: rest → ∃ u : State,
      u = removeHead { s with port := { s.port with
        transaction := .take (some d) true, out := directiveBytes (some d) } } ∧
      exec (.take (.through (n + 1))) s = .next (attend s { u with port := { u.port with
        transaction := .idle, out := directiveBytes (some d) ++ List.replicate n 0 } })) ∧
    (∀ (s : State) (d : Directive), s.port.transaction = .take (some d) false →
      exec (.take .lastBit) s = .next (attend s (removeHead { s with port := { s.port with
        transaction := .take (some d) true, out := s.port.out ++ directiveBytes (some d) } }))) ∧
    (∀ s : State, s.port.waits = [] → s.treat.holdList = [] → s.anyDeferred = false →
      removeHead s = { s with port := { s.port with directives := s.port.directives.tail } }) ∧
    (∀ s : State, (removeHead s).treat.holdList = [] ∨ (removeHead s).free = 0) ∧
    (∀ s : State, removeHead s = resumeAll (retryIfRoom (serveWaiters 33
      { s with port := { s.port with directives := s.port.directives.tail } }))) ∧
    (∀ (s : State) (n : Nat),
      (s.port.waits = [] → serveWaiters n s = s) ∧
      ∀ w rest, s.port.waits = w :: rest →
        (s.free < waitNeed s w → serveWaiters n s = s) ∧
        (waitNeed s w ≤ s.free → serveWaiters (n + 1) s = serveWaiters n (takeWaiter w (unawaited w s)))) ∧
    (∀ (s : State) (w : RoomWait) (u served : State), s.port.waits = [w] →
      u = { s with port := { s.port with directives := s.port.directives.tail } } →
      served = takeWaiter w (unawaited w u) →
      (u.free < waitNeed u w → removeHead s = resumeAll (retryIfRoom u)) ∧
      (waitNeed u w ≤ u.free → served.port.waits = [] → removeHead s = resumeAll (retryIfRoom served))) ∧
    (∀ (s : State) (p : Position) (t d : Nat) (b : Binding), (s.agent p).state = .alerting t b d →
      waitNeed s (.rona p) = (if b.isLocal = true then 2 else 1) ∧ takeWaiter (.rona p) s = releaseAlert p b 15 s) ∧
    ∀ (s : State) (c : Slot) (k : Call), s.callAt c = some k →
      waitNeed s (.watch c) = 1 ∧ waitNeed s (.divert c) = 1 ∧
      (∀ q a d me, k.state = .alertingRemote q a d → s.bus.id = some me → 0 < s.free → takeWaiter (.watch c) s =
        divertOrAttempt c k ((placed [.unroute k.trunk] (markCleared c q s)).reply q (.cancel ⟨me, c, (s.slotRec c).gen⟩))) ∧
      (k.state = .waiting → k.divertPending = true → 0 < s.free → takeWaiter (.divert c) s =
        freeCall c (groupCounts k.group (fun n => { n with diverted := min 65535 (n.diverted + 1) })
          (placed [.divert k.trunk (s.groupRec k.group).divertCode] s)))

/-- When each attention cause is pending, and its detail (R172); the causes rank in the order of their codes. ATTENTION
returns the highest pending one and its detail, taken at the first bit, and at the last bit clears CLOCK_LOSS with sync present
at that moment, ISOLATED, and the stations returned of PEER_CHANGE, and no other cause (R173). That a returned station which
changed again after the first bit leaves the set (log entry 42), the byte order of the detail (log entry 43), its bit n
standing for station n (log entry 44) and the codes of the isolation causes in it (log entry 51) are the model's choices; that
CLOCK_LOSS has the detail 0 is deduced (log entry 52). -/
def Obligations.AttentionReturnsTheTopCause : Prop :=
  FieldsAreNumbers ∧
  (causeByte none = 0 ∧ causeByte (some .loadFault) = 1 ∧ causeByte (some .clockLoss) = 2 ∧
    causeByte (some .isolated) = 3 ∧ causeByte (some .peerChange) = 4 ∧ causeByte (some .directivesPending) = 5 ∧
    causeByte (some .agentChange) = 6) ∧
  (∀ s : State,
    (causePending s .loadFault = true ↔ ∃ code, s.port.loadFault = some code) ∧
    (∀ code, s.port.loadFault = some code → causeDetail s .loadFault = code) ∧
    (causePending s .clockLoss = true ↔ s.time.clockLoss = true) ∧ causeDetail s .clockLoss = 0 ∧
    (causePending s .isolated = true ↔ ∃ cause, s.port.isolated = some cause) ∧
    (s.port.isolated = some .busFault → causeDetail s .isolated = 1) ∧
    (s.port.isolated = some .duplicateId → causeDetail s .isolated = 2) ∧
    (causePending s .peerChange = true ↔ ∃ p : Station, s.peers.changed[p] = true) ∧
    (∀ n, (causeDetail s .peerChange).testBit n = true ↔ ∃ p : Station, p.val = n ∧ s.peers.changed[p] = true) ∧
    (causePending s .directivesPending = true ↔ s.port.directives ≠ []) ∧
    causeDetail s .directivesPending = s.port.directives.length ∧
    (causePending s .agentChange = true ↔ ∃ p, (s.agent p).changed = true) ∧
    (∃ ps : List Position, ps.Nodup ∧ causeDetail s .agentChange = ps.length ∧ ∀ p, p ∈ ps ↔ (s.agent p).changed = true) ∧
    (topCause s = none ↔ ∀ c, causePending s c = false) ∧
    ∀ c, topCause s = some c ↔ causePending s c = true ∧
      ∀ d, causePending s d = true → causeByte (some c) ≤ causeByte (some d)) ∧
  (∀ s : State, NoRestart s →
    exec (.attention (.through 0)) s = .next (answered s []) ∧
    exec (.attention .opens) s = .next { s with port := { s.port with transaction := .attention none false, out := [] } } ∧
    ((∀ c, causePending s c = false) → ∀ n,
      exec (.attention (.through (n + 1))) s = .next (answered s (List.replicate (n + 3) 0))) ∧
    ∀ c n, causePending s c = true →
      (∀ d, causePending s d = true → causeByte (some c) ≤ causeByte (some d)) →
      exec (.attention (.through (n + 1))) s = .next (answered
        (match c with
          | .clockLoss =>
            if s.time.syncPresent = true then { s with time := { s.time with clockLoss := false } } else s
          | .isolated => { s with port := { s.port with isolated := none } }
          | .peerChange => { s with peers := { s.peers with changed := Vector.replicate 15 false } }
          | .loadFault | .directivesPending | .agentChange => s)
        (lowByte (causeByte (some c)) :: twoBytes (causeDetail s c) ++ List.replicate n 0))) ∧
    (∀ s : State, s.port.transaction = .attention none false →
      exec (.attention .firstBit) s = .next { s with port := { s.port with
        transaction := .attention (some (topCause s, ((topCause s).map (causeDetail s)).getD 0)) false } }) ∧
    ∀ (s : State) (cause : Option Cause) (detail : Nat), s.port.transaction = .attention (some (cause, detail)) false →
      ∃ driven : State,
        driven = { s with port := { s.port with
          transaction := .attention (some (cause, detail)) true
          out := s.port.out ++ lowByte (causeByte cause) :: twoBytes detail } } ∧
        exec (.attention .lastBit) s = .next (
          match cause with
          | some .clockLoss =>
            if s.time.syncPresent = true then { driven with time := { s.time with clockLoss := false } } else driven
          | some .isolated => { driven with port := { driven.port with isolated := none } }
          | some .peerChange => { driven with peers := { s.peers with
              changed := Vector.ofFn fun i => s.peers.changed[i] && !(detail.testBit i.val) } }
          | some .loadFault | some .directivesPending | some .agentChange | none => driven)

/-- CHANGES returns the count of the marked positions and then the positions, ascending, and clears the mark of each
at its last bit (R174). -/
def Obligations.ChangesClearsTheMarksItReturns : Prop :=
  (∀ s : State, NoRestart s →
    exec (.changes (.through 0)) s = .next (answered s []) ∧
    exec (.changes .opens) s = .next { s with port := { s.port with transaction := .changes (marked s) 0, out := [] } } ∧
    ∀ n, exec (.changes (.through (n + 1))) s = .next { s with
      agents := Vector.ofFn fun p =>
        if p ∈ (marked s).take n then { s.agents[p] with changed := false } else s.agents[p]
      port := { s.port with
        transaction := .idle
        out := lowByte (marked s).length ::
          ((marked s).take n).map (fun p => lowByte p.val) ++ List.replicate (n - (marked s).length) 0 } }) ∧
    ∀ (s : State) (list : List Position) (i : Nat) (p : Position), s.port.transaction = .changes list (i + 1) →
      list[i]? = some p →
      exec (.changes .lastBit) s = .next { s with
        agents := alter s.agents p fun a => { a with changed := false }
        port := { s.port with transaction := .changes list (i + 2), out := s.port.out ++ [lowByte p.val] } }

/-- In level mode the line is low while a cause is pending; in pulse mode it goes low when a cause becomes pending, and
high again at the pulse's end (R175). `attend` is what every command does to the line, judged over the whole command
(log entry 12). -/
def Obligations.AttentionLineFollowsTheCauses : Prop :=
  (∀ s : State, s.pulseMode = false → (lineLow s = true ↔ ∃ c, causePending s c = true)) ∧
    (∀ s : State, s.pulseMode = true → lineLow s = s.port.pulse) ∧
    (∀ before after : State, after.pulseMode = true →
      (∃ c, causePending after c = true ∧ causePending before c = false) →
      attend before after = { after with port := { after.port with pulse := true } }) ∧
    (∀ before after : State, after.pulseMode = false ∨
        (∀ c, causePending after c = true → causePending before c = true) → attend before after = after) ∧
    ∀ s : State, exec .attentionPulseEnd s = .next { s with port := { s.port with pulse := false } }

/-! ### Distribution (R49 to R54, R64 to R78, R149, R160) -/

/-- The orders of choice: local agents by score, then earlier ready_since, then position (R54); a call's peers by best,
then station (R64, R67); an agent's calls by class, then arrival, then group and place (R72); a claim by age, then
station, then membership (R73), the age being the effective one (R140); a CLAIM's call by arrival, then group and place
(R161). -/
def Obligations.SelectionsFollowTheOrders : Prop :=
  (∀ (s : State) (score : Position → Nat), (∀ p, score p ≠ 0 → (s.agent p).state.available = true) →
    match bestAgent s score with
    | none => ∀ p, score p = 0
    | some (p, v) => v = score p ∧ 0 < v ∧ ∀ q, q ≠ p → score q < v ∨ (score q = v ∧
        ∃ t t', (s.agent p).state.since = some t ∧ (s.agent q).state.since = some t' ∧ (t < t' ∨ (t = t' ∧ p < q)))) ∧
    (∀ (s : State) (k : Call),
      match bestPeer s k with
      | none => s.bus.station ≠ .active ∨ k.tier = 0 ∨ ∀ p g, ¬ PeerCandidate s k p g
      | some (p, v, g) => s.bus.station = .active ∧ k.tier ≠ 0 ∧ PeerCandidate s k p g ∧ v = (peerEntry s p g).best ∧
          ∀ q h, PeerCandidate s k q h → (peerEntry s q h).best < v ∨
            ((peerEntry s q h).best = v ∧ (p < q ∨ (p = q ∧ (g = k.group ∨ h = g))))) ∧
    (∀ (s : State) (a : Agent),
      match pickCall s a with
      | none => ∀ c k, ¬ OpenTo s a c k
      | some (c, k) => OpenTo s a c k ∧ ∀ d j, OpenTo s a d j → k.priority < j.priority ∨ (k.priority = j.priority ∧
          (k.arrival < j.arrival ∨ (k.arrival = j.arrival ∧ s.queuedSlots.idxOf c ≤ s.queuedSlots.idxOf d)))) ∧
    (∀ (s : State) (a : Agent),
      match pickClaim s a with
      | none => ∀ p, ∀ m ∈ a.members, (peerEntry s p m.group).waiting = 0
      | some (p, g) => 0 < (peerEntry s p g).waiting ∧ g ∈ a.members.map Membership.group ∧
          ∀ q, ∀ m ∈ a.members, 0 < (peerEntry s q m.group).waiting → effectiveAge s q m.group < effectiveAge s p g ∨
            (effectiveAge s q m.group = effectiveAge s p g ∧ (p < q ∨ (p = q ∧
              (a.members.map Membership.group).idxOf g ≤ (a.members.map Membership.group).idxOf m.group)))) ∧
    (∀ (s : State) (p : Station) (g : Group),
      ((peerEntry s p g).waiting = 0 → effectiveAge s p g = 0) ∧
      ∀ row t, s.peers.rows[p] = some row → row.receipt = some t → 0 < (peerEntry s p g).waiting →
        effectiveAge s p g = min 65535 ((peerEntry s p g).age + (s.now - t) / 10)) ∧
    ∀ (s : State) (p : Station) (g : Group),
      match pickForClaim s p g with
      | none => ∀ c k, ¬ Claimable s p g c k
      | some (c, k) => Claimable s p g c k ∧ ∀ d j, Claimable s p g d j → k.arrival < j.arrival ∨
          (k.arrival = j.arrival ∧ s.queuedSlots.idxOf c ≤ s.queuedSlots.idxOf d)

/-- A call-side attempt: deferred with fewer than 8 free entries, or with no frame room for an offer; otherwise the best
peer is offered the call when it beats the best local agent by more than the margin, else that agent is bound, else
nothing but the deferred mark changes (R66, R67, R75). The local agents are those with a score over the call's eligible groups
(R53, R64, R65); when an agent of this station is bound to the call's reference, every bind of the call is refused, so no
agent counts as free for it (R13). -/
def Obligations.CallAttemptsDecideByTheMargin : Prop :=
  (∀ (s : State) (c : Slot) (k : Call),
    ((∀ q me, s.bus.id = some me → (s.agent q).boundTo ⟨me, c, (s.slotRec c).gen⟩ = false) →
      bestLocal s c k = bestAgent s (fun p => (scoreOver s (s.agent p) (s.eligibleGroups k)).1)) ∧
    (∀ q me, s.bus.id = some me → (s.agent q).boundTo ⟨me, c, (s.slotRec c).gen⟩ = true → bestLocal s c k = none) ∧
    (k.tier ≠ 2 → s.eligibleGroups k = [k.group]) ∧
    (k.tier = 2 → s.eligibleGroups k = k.group :: (s.groupRec k.group).overflow.toList)) ∧
  ∀ (s : State) (c : Slot),
    ((∀ k, s.callAt c = some k → k.state ≠ .waiting ∨ k.divertPending = true) → attemptCall c s = s) ∧
    ∀ k, s.callAt c = some k → k.state = .waiting → k.divertPending = false →
      ∃ later now : State,
        later = { callBecomesDeferred c true id s with deferrals := min 65535 (s.deferrals + 1) } ∧
        now = callBecomesDeferred c false id s ∧
        (s.free < 8 → attemptCall c s = later) ∧
        (8 ≤ s.free → ∀ p v g, bestPeer s k = some (p, v, g) →
          (∀ a l, bestLocal s c k = some (a, l) → l + s.conf.margin < v) → s.conf.margin < v →
          attemptCall c s = if s.ordinaryRoom = 0 then later else startOffer c k p g now) ∧
        (8 ≤ s.free → ∀ a l, bestLocal s c k = some (a, l) →
          (∀ p v g, bestPeer s k = some (p, v, g) → v ≤ l + s.conf.margin) →
          attemptCall c s = bindLocal c k a now) ∧
        (8 ≤ s.free → bestLocal s c k = none → (∀ p v g, bestPeer s k = some (p, v, g) → v ≤ s.conf.margin) →
          attemptCall c s = now)

/-- An agent-side attempt of a READY agent: deferred with fewer than 8 free entries; else the chosen call is bound,
a refusal ending the attempt (DEDUCED, log entry 17); else, when full, in ACTIVE and with a claim record to spare, the chosen peer is claimed from (R71 to R75). -/
def Obligations.AgentAttemptsServeTheirCallers : Prop :=
  ∀ (s : State) (p : Position) (full : Bool),
    ((∀ t, (s.agent p).state ≠ .ready t) → attemptAgent full p s = s) ∧
    ∀ t, (s.agent p).state = .ready t →
      ∃ later now : State,
        later = { s with
          agents := alter s.agents p fun a => { a with deferred := true }
          deferrals := min 65535 (s.deferrals + 1) } ∧
        now = { s with agents := alter s.agents p fun a => { a with deferred := false } } ∧
        (s.free < 8 → attemptAgent full p s = later) ∧
        (8 ≤ s.free → ∀ c k, pickCall s (s.agent p) = some (c, k) → attemptAgent full p s = bindLocal c k p now) ∧
        (8 ≤ s.free → pickCall s (s.agent p) = none →
          (full = false ∨ s.bus.station ≠ .active ∨ 8 ≤ s.exch.claims.length ∨ pickClaim s (s.agent p) = none) →
          attemptAgent full p s = now) ∧
        (8 ≤ s.free → pickCall s (s.agent p) = none → full = true → s.bus.station = .active →
          s.exch.claims.length < 8 → ∀ h g, pickClaim s (s.agent p) = some (h, g) →
          attemptAgent full p s =
            if s.ordinaryRoom = 0 then later else startClaim p h g (scoreIn s (s.agent p) g) now)

/-- What a local binding, an offer and a claim change, with their directives and frames (R13, R39, R68, R69, R74, R141,
R149, R160). A binding of a call whose reference is already bound here changes nothing (R13, R39); that it also ends the
agent-side attempt that named it is deduced (log entry 17). -/
def Obligations.BindingsOffersAndClaimsStart : Prop :=
  (∀ (s : State) (c : Slot) (k : Call) (p : Position) (t : Nat) (me : Station), s.callAt c = some k →
    s.bus.id = some me → (s.agent p).state.available = true → (s.agent p).state.since = some t → 2 ≤ s.free →
    (∀ q, (s.agent q).boundTo ⟨me, c, (s.slotRec c).gen⟩ = false) →
    bindLocal c k p s = placed [.route k.trunk me p, .alert p me k.tag] (unawaited (.watch c)
      (callBecomesDeferred c false (fun k => { k with state := .alertingLocal p }) (claimRemoved p
        { s with agents := alter s.agents p fun a =>
            { a with
              state := .alerting t ⟨⟨me, c, (s.slotRec c).gen⟩, k.group, true⟩
                (s.now + 10 * (s.groupRec k.group).alertTime)
              changed := true, deferred := false } })))) ∧
    (∀ (s : State) (c : Slot) (k : Call) (p q : Position) (me : Station), s.bus.id = some me →
      (s.agent q).boundTo ⟨me, c, (s.slotRec c).gen⟩ = true → bindLocal c k p s = s) ∧
    (∀ (s : State) (c : Slot) (k : Call) (p me : Station) (g : Group), s.bus.id = some me → 0 < s.ordinaryRoom →
      startOffer c k p g s = adjustOffer p g { unawaited (.watch c)
          (callBecomesDeferred c false (fun k => { k with state := .offered p (s.now + s.conf.offerTimeout) g }) s) with
        bus := Bus.choose { s.bus with ordinary := s.bus.ordinary ++ [⟨toDest p,
          .offer ⟨me, c, (s.slotRec c).gen⟩ g k.priority.val k.tier k.tag (min 65535 ((s.now - k.arrival) / 10))⟩] } }) ∧
    (∀ (s : State) (p : Station) (g : Group) (row : PeerRow), s.peers.rows[p] = some row →
      ∃ lowered : Entry → Entry,
        (∀ e, lowered e =
          if e.group = g then { e with ready := e.ready - 1, best := if e.ready ≤ 1 then 0 else e.best } else e) ∧
        adjustOffer p g s = { s with peers := { s.peers with
          rows := alter s.peers.rows p fun _ => some { row with entries := row.entries.map lowered } } }) ∧
    ∀ (s : State) (p : Position) (h me : Station) (g : Group) (score t : Nat), s.bus.id = some me →
      (s.agent p).state = .ready t → 0 < s.ordinaryRoom →
      startClaim p h g score s = { enters p (.claiming t) s with
        exch := { s.exch with claims := s.exch.claims ++ [⟨p, h, g, s.now + s.conf.claimTimeout⟩] }
        bus := Bus.choose { s.bus with ordinary := s.bus.ordinary ++ [⟨toDest h, .claim g me p score⟩] } }

/-! ### Treatments (R83 to R100) -/

/-- The walk of a treatment: a step boundary with no free entry holds the context (R84); else control steps are taken,
at most 8 of them (R85, R86), and a timed step ends the walk; how each control step moves on (R94 to R97). What each timed step
starts, on which slot and voice; the LISTEN and the bed's listeners and stream of a changed slot; a shortage and a stall (R86 to
R93, R99). That a repeated performance takes no free voice without room for its LISTEN is the model's choice (log entry 16). -/
def Obligations.TreatmentsWalkTheirLists : Prop :=
  (∀ (s : State) (c : Slot) (k : Call), s.callAt c = some k → ∃ (x : Context) (u : State),
    x = ⟨(s.groupRec k.group).treatment, 0, none, none, .nothing, none, none, 0, 0, false⟩ ∧
    u = callBecomes c (fun k => { k with context := some x }) s ∧
    (s.free = 0 → startTreatment c s =
      { callBecomes c (fun k => { k with context := some { x with held := true } }) s with
        treat := { s.treat with holdList := s.treat.holdList ++ [c] } }) ∧
    (0 < s.free → startTreatment c s = walk c { k with context := some x } 9 0 u)) ∧
    (∀ (s : State) (c : Slot) (k : Call) (x : Context) (n due : Nat), s.contextAt c = some x →
      (∀ st, s.stepAt x.list due = some st → st.timed = true →
        walk c k (n + 1) due s = startTimed c k st
          (callBecomes c (fun k => { k with context := some { x with index := due, control := 0 } }) s)) ∧
      ((∀ st, s.stepAt x.list due = some st → st.timed = false) →
        (x.control < 8 → ∃ y due', takeControl s c k x due (s.stepAt x.list due) = (y, due') ∧
          walk c k (n + 1) due s = walk c k n due'
            (callBecomes c (fun k => { k with context := some { y with control := x.control + 1 } }) s)) ∧
        (8 ≤ x.control → walk c k (n + 1) due s = stall c k due s))) ∧
    (∀ (s : State) (c : Slot) (k : Call) (x : Context) (due n m : Nat) (on : BranchOn) (targets : List Nat),
      takeControl s c k x due (some (.repeatNext 0)) = (x, due + 2) ∧
      takeControl s c k x due (some (.repeatNext (n + 1))) = ({ x with repeats := some (n + 1) }, due + 1) ∧
      (∀ h : branchValue s c k x on - 1 < targets.length, 0 < branchValue s c k x on →
        takeControl s c k x due (some (.branch on targets)) = (x, targets[branchValue s c k x on - 1])) ∧
      (branchValue s c k x on = 0 ∨ targets.length < branchValue s c k x on →
        takeControl s c k x due (some (.branch on targets)) = (x, due + 1)) ∧
      takeControl s c k x due (some (.nest m)) =
        ({ x with list := m, back := some ⟨x.list, due + 1, x.repeats⟩, repeats := none }, 0) ∧
      ∀ endStep : Option TreatStep, endStep = none ∨ endStep = some .endList →
        (x.back = none → takeControl s c k x due endStep =
          ({ x with visits := min 255 (x.visits + 1) }, s.loopOf x.list)) ∧
        ∀ r : ReturnPoint, x.back = some r →
          (r.runs = none ∨ r.runs = some 0 ∨ r.runs = some 1 →
            takeControl s c k x due endStep = ({ x with list := r.list, back := none }, r.index)) ∧
          (r.runs = some (n + 2) →
            takeControl s c k x due endStep = ({ x with back := some { r with runs := some (n + 1) } }, 0))) ∧
    (∀ (s : State) (c : Slot) (k : Call) (x : Context),
      branchValue s c k x .positionBucket = bucket ((s.queue k.group).idxOf c + 1) (s.groupRec k.group).posAt ∧
      branchValue s c k x .ewtBucket = bucket (ewtOf s c k) (s.groupRec k.group).ewtAt ∧
      branchValue s c k x .tier = k.tier.val + 1 ∧ branchValue s c k x .priority = k.priority.val + 1 ∧
      branchValue s c k x .visit = min 255 (x.visits + 1)) ∧
    (∀ (s : State) (c : Slot) (k : Call) (x : Context), s.callAt c = some k → k.context = some x →
      (s.free = 0 → boundary c s =
        { contextBecomes c (fun x => { x with held := true }) s with
          treat := { s.treat with holdList := s.treat.holdList ++ [c] } }) ∧
      (0 < s.free → ∃ due, boundary c s = walk c k 9 due s ∧
        (x.heard = .nothing ∨ s.stepAt x.list x.index = none → due = x.index) ∧
        ∀ st, x.heard ≠ .nothing → s.stepAt x.list x.index = some st →
          due = if st.timed = true then x.index + 1 else x.index)) ∧
    (∀ (s : State) (c : Slot) (k : Call) (x : Context) (h : HeardOn), s.callAt c = some k → k.context = some x →
      (x.heard = h → hearOn c h s = s) ∧
      (x.heard ≠ h → 0 < s.free → ∃ number : Nat,
        (match h with
          | .bed b => number = b.val
          | .voice v => number = v.val + 4
          | .silence => number = 16
          | .nothing => number = 0) ∧
        hearOn c h s = placed [.listen k.trunk number]
          (contextBecomes c (fun x => { x with heard := h }) (joinBed h (leaveBed x.heard s))))) ∧
    (∀ (s : State) (b : Bed) (n : StreamId), n.val = b.val →
      joinBed (.bed b) s = (if s.treat.listeners[b] = 0 then
          startStream n ((s.playlistOf n).getD 0 0) (listenersBecome b (fun l => l + 1) s)
        else listenersBecome b (fun l => l + 1) s) ∧
      ∀ h : HeardOn, (∀ b, h ≠ .bed b) → joinBed h s = s) ∧
    (∀ (s : State) (c : Slot) (k : Call) (b : Bed) (d : Nat),
      startTimed c k (.bed b d) s =
        contextBecomes c (fun x => { x with deadline := some (s.now + 10 * d), digits := none })
          (hearOn c (.bed b) (releaseVoice c s)) ∧
      startTimed c k (.silence d) s =
        contextBecomes c (fun x => { x with deadline := some (s.now + 10 * d), digits := none })
          (hearOn c .silence (releaseVoice c s))) ∧
    (∀ (s : State) (c : Slot) (k : Call) (step : TreatStep) (clips : List Nat) (digits : Option (List Nat)),
      (step = .say (clips.headD 0) ∧ clips.length = 1 ∧ digits = none) ∨
        (∃ base, step = .sayValue .position base ∧ digits = some clips.tail ∧
          clips = (spokenDigits (min 999 ((s.queue k.group).idxOf c + 1))).map fun d => base + d) ∨
        (∃ base, step = .sayValue .ewtMinutes base ∧ digits = some clips.tail ∧
          clips = (spokenDigits (min 999 ((ewtOf s c k + 59) / 60))).map fun d => base + d) →
      (∀ v n, PlaysOn s c v → (n : StreamId).val = v.val + 4 →
        startTimed c k step s = contextBecomes c (fun x => { x with deadline := none, digits := digits })
          (hearOn c (.voice v) (startStream n (clips.headD 0) (voiceHeld v (some c) s)))) ∧
      ((∀ v, ¬ PlaysOn s c v) → startTimed c k step s =
        contextBecomes c (fun x => { x with
            deadline := some (s.now + 10 * (((clips.map s.clipLength).sum + 7999) / 8000)), digits := none })
          (hearOn c (.bed (s.groupRec k.group).fallback)
            { s with treat := { s.treat with shortages := min 65535 (s.treat.shortages + 1) } }))) ∧
    ∀ (s : State) (c : Slot) (k : Call) (due : Nat), stall c k due s =
      contextBecomes c (fun x => { x with deadline := some (s.now + 10), digits := none, control := 0, index := due })
        (hearOn c (.bed (s.groupRec k.group).fallback) (releaseVoice c
          { s with treat := { s.treat with stalls := min 65535 (s.treat.stalls + 1) } }))

/-- STEP_DEADLINE ends the timed step, which a REPEAT with runs left performs again, or ends a stall; a step boundary
follows; clip-finished starts the next pending digit or ends the step likewise, and is ignored of a voice that no context holds
(R91, R93). TREATMENT_RESUME resumes held treatments, the longest held first, until none is held or no entry is free (R84, R86,
R94, R98). That it may be commanded, and that an early STEP_DEADLINE changes nothing, is the model's choice (log entries 2 and 29). -/
def Obligations.StepDeadlinesEndTheirSteps : Prop :=
  (∀ (s : State) (c : Slot) (k : Call) (x : Context), s.callAt c = some k → k.context = some x →
    ((∀ d, x.deadline = some d → s.now < d) → exec (.stepDeadline c) s = .next s) ∧
    ∀ d, x.deadline = some d → d ≤ s.now →
      ((∀ st, s.stepAt x.list x.index = some st → st.timed = false) →
        exec (.stepDeadline c) s = .next (attend s (boundary c
          (callBecomes c (fun k => { k with context := some { x with deadline := none } }) s)))) ∧
      ∀ st, s.stepAt x.list x.index = some st → st.timed = true →
        (∀ n, x.repeats = some (n + 2) →
          exec (.stepDeadline c) s = .next (attend s (startTimed c k st (callBecomes c (fun k =>
            { k with context := some { x with deadline := none, digits := none, repeats := some (n + 1) } }) s)))) ∧
        ((∀ n, x.repeats ≠ some (n + 2)) →
          exec (.stepDeadline c) s = .next (attend s (boundary c (callBecomes c (fun k =>
            { k with context := some { x with deadline := none, digits := none, repeats := none } }) s))))) ∧
    (∀ (s : State) (c : Slot), s.contextAt c = none → exec (.stepDeadline c) s = .next s) ∧
    (∀ s : State, s.treat.holdList = [] ∨ s.free = 0 → exec .treatmentResume s = .next s) ∧
    (∀ s : State, ∃ t, exec .treatmentResume s = .next t ∧ (t.treat.holdList = [] ∨ t.free = 0) ∧
      t.treat.holdList.length ≤ s.treat.holdList.length ∧ t.agents = s.agents ∧ t.queues = s.queues ∧ t.bus = s.bus ∧
      t.exch = s.exch ∧ t.peers = s.peers ∧ t.port.waits = s.port.waits ∧
      ∃ listens, t.port.directives = s.port.directives ++ listens ∧ ∀ d ∈ listens, ∃ trunk n, d = .listen trunk n) ∧
    (∀ s : State, exec .treatmentResume s = .next (attend s (resumeAll s)) ∧
      ∀ c rest k x, s.treat.holdList = c :: rest → 0 < s.free → s.callAt c = some k → k.context = some x →
        ∃ u : State, u = contextBecomes c (fun x => { x with held := false })
            { s with treat := { s.treat with holdList := rest } } ∧
          resumeAll s = resumeAll (boundary c u)) ∧
    ∀ (s : State) (v : Voice),
      (s.treat.voices[v] = none → clipFinished v s = s) ∧
      ∀ c k x, s.treat.voices[v] = some c → s.callAt c = some k → k.context = some x →
        (∀ d rest n, x.digits = some (d :: rest) → (n : StreamId).val = v.val + 4 →
          clipFinished v s = startStream n d (contextBecomes c (fun x => { x with digits := some rest }) s)) ∧
        ∀ st, x.digits = none ∨ x.digits = some [] → s.stepAt x.list x.index = some st →
          (∀ n, x.repeats = some (n + 2) →
            clipFinished v s = startTimed c k st (callBecomes c (fun k =>
              { k with context := some { x with deadline := none, digits := none, repeats := some (n + 1) } }) s)) ∧
          ((∀ n, x.repeats ≠ some (n + 2)) →
            clipFinished v s = boundary c (callBecomes c (fun k =>
              { k with context := some { x with deadline := none, digits := none, repeats := none } }) s))

/-! ### Exchange and station deadlines (R17, R40, R130, R131, R137, R152, R158, R163) -/

/-- OFFER_DEADLINE, ANSWER_WATCH_EXPIRY and CLAIM_DEADLINE (R152, R158, R163, R40, R17). That they change nothing before
their time or out of turn is the model's choice (log entries 2 and 30). -/
def Obligations.ExchangeDeadlinesEndTheExchange : Prop :=
  (∀ (s : State) (c : Slot) (k : Call), s.callAt c = some k →
    (∀ q d g, k.state = .offered q d g →
      exec (.offerDeadline c) s =
        if d ≤ s.now then .next (attend s (divertOrAttempt c k (markCleared c q s))) else .next s) ∧
    ((∀ q d g, k.state ≠ .offered q d g) → exec (.offerDeadline c) s = .next s) ∧
    (∀ q a d me, k.state = .alertingRemote q a d → s.bus.id = some me →
      (s.now < d → exec (.answerWatchExpiry c) s = .next s) ∧
      (d ≤ s.now → s.free = 0 → exec (.answerWatchExpiry c) s = .next (awaited (.watch c) s)) ∧
      (d ≤ s.now → 0 < s.free → exec (.answerWatchExpiry c) s =
        if waitsBehind s (.watch c) then .next s
        else .next (attend s (divertOrAttempt c k
          ((placed [.unroute k.trunk] (markCleared c q s)).reply q (.cancel ⟨me, c, (s.slotRec c).gen⟩)))))) ∧
    ((∀ q a d, k.state ≠ .alertingRemote q a d) → exec (.answerWatchExpiry c) s = .next s)) ∧
    (∀ (s : State) (c : Slot), s.callAt c = none →
      exec (.offerDeadline c) s = .next s ∧ exec (.answerWatchExpiry c) s = .next s) ∧
    ∀ (s : State) (p : Position),
      (s.claimOf p = none → exec (.claimDeadline p) s = .next s) ∧
      ∀ r, s.claimOf p = some r →
        (s.now < r.deadline → exec (.claimDeadline p) s = .next s) ∧
        ∀ t, r.deadline ≤ s.now → (s.agent p).state = .claiming t →
          exec (.claimDeadline p) s =
            .next (attend s (attemptAgent false p (entersReady p t (claimRemoved p s))))

/-- RETRY_PASS serves the deferred calls in queue order and then the deferred agents, each if its mark is still set, when
8 entries are free (R76, R77). JOIN_DEADLINE enters ACTIVE and gives every queued call at tier 1 or 2, then every READY
agent, its attempt; PROBE_DEADLINE takes a probe into an empty slot and is set again; ABSENCE_DEADLINE removes the row
(R78, R130, R131, R137, R139). That they change nothing when they are not due is the model's choice (log entries 2, 23
and 29). -/
def Obligations.PassesAndStationDeadlines : Prop :=
  (∀ s : State,
    (s.free < 8 ∨ ((∀ c, (s.slotRec c).deferred = false) ∧ ∀ p, (s.agent p).deferred = false) →
      retryIfRoom s = s) ∧
    exec .retryPass s = .next (attend s (retryIfRoom s)) ∧
    (8 ≤ s.free → (∃ c, (s.slotRec c).deferred = true) ∨ (∃ p, (s.agent p).deferred = true) →
      retryIfRoom s = (List.finRange 48).foldl
        (fun u p => if (u.agent p).deferred = true then attemptAgent true p u else u)
        (((List.finRange 16).flatMap fun g => s.queue g).foldl
          (fun u c => if (u.slotRec c).deferred = true then attemptCall c u else u) s))) ∧
  (∀ s : State,
    (∀ d, s.bus.station = .joining d →
      exec .joinDeadline s =
        if d ≤ s.now then
          .next (attend s ((List.finRange 48).foldl (fun u p => attemptAgent true p u)
            (((List.finRange 16).flatMap fun g => s.queue g).foldl
              (fun u c =>
                match u.callAt c with
                | some k => if k.tier = 0 then u else attemptCall c u
                | none => u)
              { s with bus := Bus.choose { s.bus with station := .active } })))
        else .next s) ∧
    ((∀ d, s.bus.station ≠ .joining d) → exec .joinDeadline s = .next s) ∧
    (∀ d, s.bus.station = .busFault d →
      (s.now < d → exec .probeDeadline s = .next s) ∧
      (d ≤ s.now → s.bus.slot = none →
        exec .probeDeadline s = .next { summaryPlaced s with
          bus := { (summaryPlaced s).bus with station := .busFault (s.now + s.conf.slow) } }) ∧
      (d ≤ s.now → s.bus.slot ≠ none →
        exec .probeDeadline s = .next { s with bus := { s.bus with station := .busFault (s.now + s.conf.slow) } })) ∧
    ((∀ d, s.bus.station ≠ .busFault d) → exec .probeDeadline s = .next s)) ∧
    ∀ (s : State) (p : Station),
      (∀ row, s.peers.rows[p] = some row → row.absence ≤ s.now →
        exec (.absenceDeadline p) s = .next (attend s { s with peers :=
          { rows := alter s.peers.rows p fun _ => none, changed := s.peers.changed.set p.val true } })) ∧
      ((∀ row, s.peers.rows[p] = some row → s.now < row.absence) → exec (.absenceDeadline p) s = .next s)

/-! ### The transmitter (R118 to R121, R125 to R127, R131, R132) -/

/-- The transmitter takes a reply before an ordinary frame before the summary, as the station state allows; an attempt
begins when no backoff is left, and sends the head of the queue with this station's ID as its source; a sent frame counts,
leaves its queue and is noted; new summary content stands in the slot in place of the old, or beside the summary whose attempt
is on the line (R118, R119, R122, R125, R126, R131, R146). The slots of BUS_ATTEMPT, the order of choice and pass, and the mark
that an attempt sets and the end of the sending clears for R124's duplicate test, are the model's choices (log entries 2, 13, 14
and 15). -/
def Obligations.TheTransmitterSendsInOrder : Prop :=
  (∀ (b : Bus) (es : List Entry),
    (b.inHand = some .summary → b.line ≠ none → Bus.takeSummary es b = { b with beside := some es }) ∧
    (b.inHand ≠ some .summary ∨ b.line = none → Bus.takeSummary es b = { b with slot := some es })) ∧
  (∀ b : Bus, (b.inHand ≠ none → Bus.choose b = b) ∧
    (b.inHand = none → ∃ taken : Lane → Bus, (∀ l, taken l = { b with inHand := some l, attempts := 0, backoff := none }) ∧
      Bus.choose b =
        if b.replies ≠ [] ∧ b.station.sendsReplies = true then taken .reply
        else if b.ordinary ≠ [] ∧ b.station.sendsOrdinary = true then taken .ordinary
        else if b.slot.isSome = true ∧ b.station.sendsSummaries = true then taken .summary else b)) ∧
    (∀ (s : State) (q : Station) (body : Body),
      s.reply q body =
        if s.bus.station.sendsReplies = true ∧ s.bus.replies.length < 8 then
          { s with bus := Bus.choose { s.bus with replies := s.bus.replies ++ [⟨toDest q, body⟩] } }
        else { s with bus := { s.bus with repliesLost := min 65535 (s.bus.repliesLost + 1) } }) ∧
    (∀ b : Bus, b.headOf .reply = b.replies.head? ∧ b.headOf .ordinary = b.ordinary.head? ∧
      b.headOf .summary = b.slot.map fun es => ⟨15, .summary es⟩) ∧
    (∀ (s : State) (slots : Nat),
      (s.bus.inHand = none ∨ s.bus.line ≠ none → exec (.busAttempt slots) s = .next s) ∧
      ∀ l f me, s.bus.inHand = some l → s.bus.line = none → s.bus.headOf l = some f → s.bus.id = some me →
        (s.bus.backoff = none ∨ (∃ b, s.bus.backoff = some b ∧ b ≤ slots) →
          exec (.busAttempt slots) s =
            .next { s with bus := { s.bus with
              backoff := none, line := some ⟨me, f.dest, f.body⟩, sentFirstByte := true } }) ∧
        ∀ b, s.bus.backoff = some b → slots < b →
          exec (.busAttempt slots) s = .next { s with bus := { s.bus with backoff := some (b - slots) } }) ∧
    (∀ s : State, s.bus.inHand = none ∨ s.bus.line = none → exec .frameSent s = .next s) ∧
    ∀ (s : State) (l : Lane) (f : Frame), s.bus.inHand = some l → s.bus.line = some f →
      ∃ (b : Bus) (u : State),
        b = { s.bus with
          replies := if l = .reply then s.bus.replies.tail else s.bus.replies
          ordinary := if l = .ordinary then s.bus.ordinary.tail else s.bus.ordinary
          slot := if l = .summary then s.bus.beside else s.bus.slot
          beside := if l = .summary then none else s.bus.beside
          inHand := none, attempts := 0, backoff := none, line := none, sentFirstByte := false, dropRun := 0
          framesSent := min 65535 (s.bus.framesSent + 1) } ∧
        u = { s with builder := { s.builder with lastSent :=
          match f.body with
          | .summary es => some es
          | _ => s.builder.lastSent } } ∧
        ((∀ d, s.bus.station ≠ .busFault d) → l ≠ .ordinary →
          exec .frameSent s = .next { u with bus := Bus.choose b }) ∧
        ((∀ d, s.bus.station ≠ .busFault d) → l = .ordinary →
          exec .frameSent s = .next (attend s (retryIfRoom { u with bus := Bus.choose b }))) ∧
        ∀ d, s.bus.station = .busFault d → l = .summary →
          exec .frameSent s = .next { u with
            bus := Bus.choose { b with station := .joining (s.now + s.conf.joinInterval) }
            builder := { u.builder with
              cadence := .brisk, hold := some (s.now + s.conf.briskHold), period := some (s.now + s.conf.brisk) } }

/-- A collision backs off by a draw from the generator, or at the 16th drops the frame; the third drop in a row in
JOINING or ACTIVE isolates the station. The generator never comes to 0 (R120, R121, R126, R127). That a collision with
nothing on the line changes nothing, that the choice comes before the retry pass of an ordinary frame that left, that an
isolation makes one pass, and that the mark of R124's duplicate test stays for the frame then still on the line, are the model's
choices (log entries 2, 13 and 14). -/
def Obligations.CollisionsBackOffAndDrop : Prop :=
  (∀ (s : State) (l : Lane) (f : Frame) (v : Half), s.bus.inHand = some l → s.bus.line = some f →
    s.bus.rng = some v →
    ∃ b : Bus, b = { s.bus with line := none, collisions := min 65535 (s.bus.collisions + 1) } ∧
      (s.bus.attempts + 1 < 16 → ∃ wait, wait < 2 ^ min (s.bus.attempts + 1) 8 ∧
        wait = (nextRandom v).toNat % 2 ^ min (s.bus.attempts + 1) 8 ∧
        exec .collision s = .next { s with bus := { b with
          attempts := s.bus.attempts + 1, rng := some (nextRandom v), backoff := some wait
          slot := if l = .summary ∧ s.bus.beside.isSome = true then s.bus.beside else s.bus.slot
          beside := if l = .summary then none else s.bus.beside } }) ∧
      (16 ≤ s.bus.attempts + 1 → ∃ d : Bus,
        d = { b with
          replies := if l = .reply then s.bus.replies.tail else s.bus.replies
          ordinary := if l = .ordinary then s.bus.ordinary.tail else s.bus.ordinary
          slot := if l = .summary then s.bus.beside else s.bus.slot
          beside := if l = .summary then none else s.bus.beside
          inHand := none, attempts := 0, backoff := none
          dropped := min 65535 (s.bus.dropped + 1)
          dropRun := if s.bus.station.sendsReplies = true then s.bus.dropRun + 1 else s.bus.dropRun } ∧
        (¬(s.bus.station.sendsReplies = true ∧ 3 ≤ d.dropRun) →
          exec .collision s = .next (attend s (
            if l = .ordinary then retryIfRoom { s with bus := Bus.choose d } else { s with bus := Bus.choose d }))) ∧
        (s.bus.station.sendsReplies = true ∧ 3 ≤ d.dropRun →
          exec .collision s = .next (attend s (
            if s.bus.ordinary = [] then enterIsolated .busFault { s with bus := d }
            else retryIfRoom (enterIsolated .busFault { s with bus := d })))))) ∧
    (∀ s : State, s.bus.inHand = none ∨ s.bus.line = none → exec .collision s = .next s) ∧
    (∀ v : Half, v ≠ 0#16 → nextRandom v ≠ 0#16) ∧ ∀ (seed : Half) (me : Station), seedRandom seed me ≠ 0#16

/-- Entry to ISOLATED abandons and counts what is queued, shows the cause, and ends the Builder's deadlines; BUS_FAULT
also clears the Peer View, each present row joining the changed set; abandoned ordinary frames give the retry pass (R76,
R127, R131, R132, R138, R146). That it is one pass, made at the end, is the model's choice (log entry 13). -/
def Obligations.IsolationAbandonsTheQueues : Prop :=
  ∀ s : State,
    ∃ entered : StationState → IsolationCause → State,
      (∀ st cause, entered st cause = { s with
        bus := { s.bus with
          station := st, inHand := none, attempts := 0, backoff := none, line := none
          replies := [], ordinary := [], slot := none, beside := none
          dropped := min 65535 (s.bus.dropped + (s.bus.replies.length + s.bus.ordinary.length +
            if s.bus.slot.isSome = true then 1 else 0)) }
        port := { s.port with isolated := some cause }
        builder := { s.builder with period := none, hold := none } }) ∧
      enterIsolated .duplicateId s = entered .duplicateId .duplicateId ∧
      enterIsolated .busFault s = { entered (.busFault (s.now + s.conf.slow)) .busFault with peers :=
        { rows := Vector.replicate 15 none
          changed := Vector.ofFn fun i => s.peers.changed[i] || s.peers.rows[i].isSome } } ∧
      ∀ cause, (s.bus.ordinary = [] → isolate cause s = enterIsolated cause s) ∧
        (s.bus.ordinary ≠ [] → isolate cause s = retryIfRoom (enterIsolated cause s))

/-! ### Received frames (R122 to R124, R135 to R141, R147 to R162) -/

/-- What every received frame meets before its kind: nothing out of service; the range tests; the count; the duplicate
test; the source heard; the destination; the kinds ISOLATED ignores; the naming check (R123, R124, R132, R135, R148). That
FRAME_CHECK_ERROR carries the bytes is the model's choice (log entries 24 and 25), and so is how the duplicate test knows that
this station was sending during the first byte (log entry 14). -/
def Obligations.FramesAreTestedInOrder : Prop :=
  (∀ (s : State) (h : Header) (b : Body), BodyInRange b →
    (s.outOfService = true → exec (frameInstr h b) s = .next s) ∧
    (s.outOfService = false → 15 ≤ h.source ∨ 16 ≤ h.dest → exec (frameInstr h b) s = .next (checkErrorCounted s)) ∧
    (∀ me, s.outOfService = false → s.bus.id = some me → h.source = me.val → h.dest < 16 →
      exec (frameInstr h b) s =
        if s.bus.sentFirstByte = true ∨ s.bus.station = .duplicateId then .next (frameCounted s)
        else .next (attend s (isolate .duplicateId (frameCounted s)))) ∧
    (∀ p me : Station, s.outOfService = false → s.bus.id = some me → me ≠ p → h.source = p.val → h.dest < 15 →
      h.dest ≠ me.val → exec (frameInstr h b) s = .next (attend s (heardFrom p s))) ∧
    ∀ p me, Arrives s h p me →
      (s.bus.station.sendsReplies = false →
        (∃ r g pr t tag age, b = .offer r g pr t tag age) ∨ (∃ g st q sc, b = .claim g st q sc) →
        exec (frameInstr h b) s = .next (attend s (heardFrom p s))) ∧
      (s.bus.station.sendsReplies = true ∨
          ((∀ r g pr t tag age, b ≠ .offer r g pr t tag age) ∧ ∀ g st q sc, b ≠ .claim g st q sc) →
        (match b with
          | .offer r .. | .cancel r => r.home ≠ p
          | .accept r .. | .decline r _ | .answered r _ | .returned r _ => r.home ≠ me
          | .claim _ st _ _ => st ≠ p
          | .nocall .. | .summary _ => False) →
        exec (frameInstr h b) s = .next (attend s (staleCounted (heardFrom p s))))) ∧
    (∀ (s : State) (bytes : List Byte), s.outOfService = false → bytes ≠ [] →
      (receiveBytes bytes = none → exec (.frameCheckError bytes) s = .next (checkErrorCounted s)) ∧
      ∀ f : Frame, receiveBytes bytes = some f →
        exec (.frameCheckError bytes) s = exec (frameInstr ⟨f.source.val, f.dest.val⟩ f.body) s) ∧
    ∀ (s : State) (h : Header) (r : RawRef) (g st p n t age reason : Nat) (tag : Half) (es : List RawEntry),
      s.outOfService = false →
      (16 < es.length ∨ (∃ e ∈ es, 16 ≤ e.group ∨ 48 < e.ready ∨ 35495 < e.best ∨ 64 < e.waiting ∨ 65535 < e.age) →
        exec (.summary h es) s = .next (checkErrorCounted s)) ∧
      (RefOutside r ∨ 16 ≤ g ∨ 255 < n ∨ 3 ≤ t ∨ 65535 < age →
        exec (.offer h r g n t tag age) s = .next (checkErrorCounted s)) ∧
      (16 ≤ g ∨ 15 ≤ st ∨ 48 ≤ p ∨ 35495 < n → exec (.claim h g st p n) s = .next (checkErrorCounted s)) ∧
      (RefOutside r ∨ 48 ≤ p ∨ 35495 < n → exec (.accept h r p n) s = .next (checkErrorCounted s)) ∧
      (RefOutside r ∨ reason = 0 ∨ 3 < reason → exec (.decline h r reason) s = .next (checkErrorCounted s)) ∧
      (RefOutside r → exec (.cancel h r) s = .next (checkErrorCounted s)) ∧
      (RefOutside r ∨ 48 ≤ p → exec (.answered h r p) s = .next (checkErrorCounted s) ∧
        exec (.returned h r p) s = .next (checkErrorCounted s)) ∧
      (16 ≤ g ∨ 48 ≤ p → exec (.nocall h g p) s = .next (checkErrorCounted s))

/-- The frames about this station's own calls: ACCEPT, DECLINE, ANSWERED and RETURNED from a peer (R150, R151, R156,
R157, R39, R40, R141). -/
def Obligations.HomeTakesTheReplies : Prop :=
  ∀ (s : State) (h : Header) (p me : Station) (r : CallRef) (pos : Position), Arrives s h p me → r.home = me →
    (∀ score, score ≤ 35495 →
      (∀ k d g, s.named r = some k → k.state = .offered p d g →
        exec (frameInstr h (.accept r pos score)) s =
          if s.free = 0 then .next (attend s ((heardFrom p s).reply p (.cancel r)))
          else .next (attend s (placed [.route k.trunk p pos] (callBecomesDeferred r.slot false
            (fun k => { k with
              state := .alertingRemote p pos (s.now + 10 * ((s.groupRec k.group).alertTime + 2)) }) (heardFrom p s))))) ∧
      (∀ k a d, s.named r = some k → k.state = .alertingRemote p a d →
        exec (frameInstr h (.accept r pos score)) s = .next (attend s (staleCounted (heardFrom p s)))) ∧
      ((∀ k, s.named r = some k → (∀ d g, k.state ≠ .offered p d g) ∧ ∀ a d, k.state ≠ .alertingRemote p a d) →
        exec (frameInstr h (.accept r pos score)) s =
          .next (attend s ((staleCounted (heardFrom p s)).reply p (.cancel r))))) ∧
    (∀ why : DeclineReason,
      (∀ k d g, s.named r = some k → k.state = .offered p d g →
        exec (frameInstr h (.decline r why)) s = .next (attend s (divertOrAttempt r.slot k (markCleared r.slot p
          (match why with
            | .noAgent | .notServed => adjustEntry p g (fun e => { e with ready := 0, best := 0 }) (heardFrom p s)
            | .noRoom => heardFrom p s))))) ∧
      ((∀ k, s.named r = some k → ∀ d g, k.state ≠ .offered p d g) →
        exec (frameInstr h (.decline r why)) s = .next (attend s (staleCounted (heardFrom p s))))) ∧
    (∀ k d, s.named r = some k → k.state = .alertingRemote p pos d →
      exec (frameInstr h (.answered r pos)) s = .next (attend s (connect r.slot (heardFrom p s))) ∧
      exec (frameInstr h (.returned r pos)) s =
        if s.free = 0 then .next (attend s (staleCounted (heardFrom p s)))
        else .next (attend s (divertOrAttempt r.slot k (placed [.unroute k.trunk]
          (groupCounts k.group (fun n => { n with ronaReturns := min 65535 (n.ronaReturns + 1) })
            (markCleared r.slot p (heardFrom p s))))))) ∧
    ((∀ k d, s.named r = some k → k.state ≠ .alertingRemote p pos d) →
      exec (frameInstr h (.returned r pos)) s = .next (attend s (staleCounted (heardFrom p s))) ∧
      exec (frameInstr h (.answered r pos)) s =
        if s.named r ≠ none ∧ ∀ k, s.named r = some k → k.state = .connected then .next (attend s (heardFrom p s))
        else .next (attend s (staleCounted (heardFrom p s))))

/-- The frames about this station's own agents: OFFER and CANCEL from a call's home (R153, R154, R159, R13, R15). -/
def Obligations.PeerTakesTheOffers : Prop :=
  ∀ (s : State) (h : Header) (p me : Station) (r : CallRef), Arrives s h p me → r.home = p →
    (∀ g pr tier tag age, s.bus.station.sendsReplies = true → pr ≤ 255 → age ≤ 65535 →
      (∀ a, s.boundAgent r = some a →
        ((∀ b, (s.agent a).state ≠ .talking b) →
          exec (frameInstr h (.offer r g pr tier tag age)) s =
            .next (attend s ((heardFrom p s).reply p (.accept r a 0)))) ∧
        ∀ b, (s.agent a).state = .talking b →
          exec (frameInstr h (.offer r g pr tier tag age)) s =
            if s.bus.replies.length + 2 ≤ 8 then
              .next (attend s (((heardFrom p s).reply p (.accept r a 0)).reply p (.answered r a)))
            else .next (attend s ((heardFrom p s).reply p (.decline r .noRoom)))) ∧
      (s.boundAgent r = none →
        (s.defines g = false ∨ tier = 0 ∨ 3 < pr →
          exec (frameInstr h (.offer r g pr tier tag age)) s =
            .next (attend s ((heardFrom p s).reply p (.decline r .notServed)))) ∧
        (s.defines g = true → tier ≠ 0 → pr ≤ 3 →
          (bestAgent s (fun a => scoreIn s (s.agent a) g) = none →
            exec (frameInstr h (.offer r g pr tier tag age)) s =
              .next (attend s ((heardFrom p s).reply p (.decline r .noAgent)))) ∧
          ∀ a score, bestAgent s (fun a => scoreIn s (s.agent a) g) = some (a, score) →
            (s.free = 0 ∨ 8 ≤ s.bus.replies.length →
              exec (frameInstr h (.offer r g pr tier tag age)) s =
                .next (attend s ((heardFrom p s).reply p (.decline r .noRoom)))) ∧
            ∀ t, 0 < s.free → s.bus.replies.length < 8 → (s.agent a).state.since = some t →
              exec (frameInstr h (.offer r g pr tier tag age)) s = .next (attend s (State.reply
                (placed [.alert a p tag] (claimRemoved a { heardFrom p s with agents := alter s.agents a fun x =>
                  { x with
                    state := .alerting t ⟨r, g, false⟩ (s.now + 10 * (s.groupRec g).alertTime)
                    changed := true, deferred := false } }))
                p (.accept r a score)))))) ∧
    (s.boundAgent r = none → exec (frameInstr h (.cancel r)) s = .next (attend s (heardFrom p s))) ∧
    ∀ a, s.boundAgent r = some a →
      (∀ t b d, (s.agent a).state = .alerting t b d → 0 < s.free →
        exec (frameInstr h (.cancel r)) s =
          .next (attend s (attemptAgent false a (entersReady a t (placed [.withdraw a] (heardFrom p s)))))) ∧
      ((∀ t b d, (s.agent a).state ≠ .alerting t b d) ∨ s.free = 0 →
        exec (frameInstr h (.cancel r)) s = .next (attend s (staleCounted (heardFrom p s))))

/-- The frames between the Distribution Engines: CLAIM, NOCALL and SUMMARY (R161, R162, R17, R136, R70, R141). What a row
holds of a SUMMARY: ascending groups, the last entry of a group, best 0 where the ready count is 0 (R136). -/
def Obligations.ClaimsAndSummariesAreTaken : Prop :=
  (∀ es : List Entry, (heldEntries es).Pairwise (fun e f => e.group < f.group) ∧
    ∀ e, e ∈ heldEntries es ↔ ∃ pre x post, es = pre ++ x :: post ∧ (∀ y ∈ post, y.group ≠ x.group) ∧
      e = { x with best := if x.ready = 0 then 0 else x.best }) ∧
  ∀ (s : State) (h : Header) (p me : Station), Arrives s h p me →
    (∀ g pos score, s.bus.station.sendsReplies = true → score ≤ 35495 →
      (s.bus.station ≠ .active ∨ score = 0 ∨ pickForClaim s p g = none →
        exec (frameInstr h (.claim g p pos score)) s = .next (attend s ((heardFrom p s).reply p (.nocall g pos)))) ∧
      (s.bus.station = .active → 0 < score → ∀ c k, pickForClaim s p g = some (c, k) →
        exec (frameInstr h (.claim g p pos score)) s =
          if s.ordinaryRoom = 0 then .next (attend s (heardFrom p s))
          else .next (attend s (startOffer c k p g (heardFrom p s))))) ∧
    (∀ g pos,
      (∀ r t, s.claimOf pos = some r → r.peer = p → r.group = g → (s.agent pos).state = .claiming t →
        exec (frameInstr h (.nocall g pos)) s = .next (attend s (attemptAgent false pos
          (adjustEntry p g (fun e => { e with waiting := 0, age := 0 })
            (entersReady pos t (claimRemoved pos (heardFrom p s))))))) ∧
      ((∀ r, s.claimOf pos = some r → r.peer ≠ p ∨ r.group ≠ g) →
        exec (frameInstr h (.nocall g pos)) s = .next (attend s (staleCounted (heardFrom p s))))) ∧
    ∀ es, es.length ≤ 16 → (∀ e ∈ es, EntryInRange e) →
      ∃ u : State,
        u = { heardFrom p s with peers := { (heardFrom p s).peers with
          rows := alter s.peers.rows p fun _ =>
            some ⟨s.now + 3 * s.conf.slow, some s.now, heldEntries es⟩ } } ∧
        (s.bus.station ≠ .active ∨ (∀ g, (peerEntry u p g).best ≤ (peerEntry s p g).best) →
          exec (frameInstr h (.summary es)) s = .next (attend s u)) ∧
        (s.bus.station = .active → (∃ g, (peerEntry s p g).best < (peerEntry u p g).best) →
          exec (frameInstr h (.summary es)) s = .next (attend s (((List.finRange 16).flatMap fun g => s.queue g).foldl
            (fun v c =>
              match v.callAt c with
              | some k =>
                if k.tier ≠ 0 ∧ k.declined[p] = false ∧
                    ∃ g ∈ v.eligibleGroups k, (peerEntry s p g).best < (peerEntry u p g).best
                then attemptCall c v else v
              | none => v) u)))

/-! ### The figures (R51, R52, R55, R57, R59, R60) and the byte layouts (11.5) -/

/-- The agent score as R52 lays it out, and its range; the bucket of a figure (R59) and the digits of a spoken one
(R60). The idle, occupancy and debt inputs (R49 to R51); who has a score and the best over several groups (R52, R53); the staffed
count and the expected wait (R56 to R58); the ready count, the best, the peer waiting count and the oldest age (R61, R62); the
content of a summary (R143) and when it differs significantly from the last sent (R144). That the occupancy is 0 while the
configuration is absent is the model's choice (log entry 38). -/
def Obligations.FiguresFollowTheArithmetic : Prop :=
  (∀ prof idle occ debt wIdle wOcc : Nat, prof ≤ 15 → idle ≤ 2047 → occ ≤ 1000 → debt ≤ 255 → wIdle ≤ 15 → wOcc ≤ 15 →
    (scoreOf prof idle occ debt wIdle wOcc : Int) = max 1
      (2048 * (prof : Int) + (idle * wIdle / 8 : Nat) + ((1000 - occ) * wOcc / 16 : Nat) - 16 * (debt : Int)) ∧
    1 ≤ scoreOf prof idle occ debt wIdle wOcc ∧ scoreOf prof idle occ debt wIdle wOcc ≤ 35495) ∧
    (∀ x t1 t2 t3 : Nat, t1 < t2 → t2 < t3 →
    (x < t1 → bucket x (t1, t2, t3) = 1) ∧ (t1 ≤ x → x < t2 → bucket x (t1, t2, t3) = 2) ∧
    (t2 ≤ x → x < t3 → bucket x (t1, t2, t3) = 3) ∧ (t3 ≤ x → bucket x (t1, t2, t3) = 4)) ∧
    (∀ n : Nat, n ≤ 999 → (spokenDigits n).foldl (fun v d => 10 * v + d) 0 = n ∧ (∀ d ∈ spokenDigits n, d ≤ 9) ∧
      ((spokenDigits n).head? = some 0 → spokenDigits n = [0]) ∧ 1 ≤ (spokenDigits n).length ∧ (spokenDigits n).length ≤ 3) ∧
    (∀ (now : Nat) (a : Agent),
      (∀ t, a.state = .ready t ∨ a.state = .claiming t ∨ (∃ b d, a.state = .alerting t b d) →
        idleInput now a = min 2047 ((now - t) / 10)) ∧
      (a.state.since = none → idleInput now a = 0) ∧ debtInput a = min 255 (a.debtPrev + a.debtCur)) ∧
    (∀ (s : State) (a : Agent),
      (s.cfg = none → occupancy s a = 0) ∧
      (s.cfg ≠ none → occupancy s a =
        min 1000 (1000 * (a.busyPrev + a.busyCur) / (s.conf.windowHalf + s.time.windowCount)))) ∧
    (∀ (s : State) (a : Agent) (g : Group),
      (∀ pre m post, a.state.available = true → a.members = pre ++ m :: post → m.group = g → (∀ x ∈ pre, x.group ≠ g) →
        scoreIn s a g = scoreOf m.proficiency (idleInput s.now a) (occupancy s a) (debtInput a) (s.groupRec g).wIdle
          (s.groupRec g).wOcc) ∧
      (a.state.available = false ∨ (∀ m ∈ a.members, m.group ≠ g) → scoreIn s a g = 0)) ∧
    (∀ (s : State) (a : Agent) (gs : List Group),
      (∀ m ∈ a.members, m.group ∈ gs → scoreIn s a m.group ≤ (scoreOver s a gs).1) ∧
      ((scoreOver s a gs).1 = 0 ∨ ∃ m ∈ a.members, m.group ∈ gs ∧ scoreIn s a m.group = (scoreOver s a gs).1)) ∧
    (∀ k aht n : Nat, ewt k aht n = min 5999 ((k * aht + max 1 n - 1) / max 1 n)) ∧
    (∀ (s : State) (g : Group) (tier : Fin 3),
      (∃ ps : List Position, ps.Nodup ∧ staffedLocal s g = ps.length ∧ ∀ p, p ∈ ps ↔
        (s.agent p).state ≠ .loggedOut ∧ (∀ r, (s.agent p).state ≠ .notReady r) ∧ ∃ m ∈ (s.agent p).members, m.group = g) ∧
      staffed s g tier = staffedLocal s g +
        (if tier = 0 then 0 else ((List.finRange 15).map fun q => (peerEntry s q g).ready).sum) ∧
      (s.queue g = [] → headEwt s g = ewt 1 s.aht[g] (staffedLocal s g)) ∧
      ∀ c rest k, s.queue g = c :: rest → s.callAt c = some k → headEwt s g = ewt 1 s.aht[g] (staffed s g k.tier)) ∧
    (∀ (s : State) (c : Slot) (k : Call),
      ewtOf s c k = ewt ((s.queue k.group).idxOf c + 1) s.aht[k.group] (staffed s k.group k.tier)) ∧
    (∀ (s : State) (q : Station) (g : Group),
      (s.peers.rows[q] = none → peerEntry s q g = ⟨g, 0, 0, 0, 0⟩) ∧
      ∀ row, s.peers.rows[q] = some row → peerEntry s q g = figuresIn row.entries g) ∧
    (∀ (es : List Entry) (g : Group),
      (∀ pre e post, es = pre ++ e :: post → e.group = g → (∀ x ∈ pre, x.group ≠ g) → figuresIn es g = e) ∧
      ((∀ e ∈ es, e.group ≠ g) → figuresIn es g = ⟨g, 0, 0, 0, 0⟩)) ∧
    (∀ (s : State) (g : Group),
      (∃ ps : List Position, ps.Nodup ∧ readyCount s g = ps.length ∧ ∀ p, p ∈ ps ↔
        ((∃ t, (s.agent p).state = .ready t) ∨ ∃ t, (s.agent p).state = .claiming t) ∧
          ∃ m ∈ (s.agent p).members, m.group = g) ∧
      (∀ p, scoreIn s (s.agent p) g ≤ bestOf s g) ∧ (bestOf s g = 0 ∨ ∃ p, scoreIn s (s.agent p) g = bestOf s g) ∧
      ∃ cs : List Slot, cs.Sublist (s.queue g) ∧ peerWaiting s g = cs.length ∧
        (∀ c ∈ s.queue g, c ∈ cs ↔ ∃ k, s.callAt c = some k ∧ k.state = .waiting ∧ k.tier ≠ 0) ∧
        (∀ c ∈ cs, ∀ k, s.callAt c = some k → min 65535 ((s.now - k.arrival) / 10) ≤ oldestAge s g) ∧
        (oldestAge s g = 0 ∨ ∃ c ∈ cs, ∃ k, s.callAt c = some k ∧ oldestAge s g = min 65535 ((s.now - k.arrival) / 10))) ∧
    (∀ s : State,
      (buildSummary s).Pairwise (fun e f => e.group < f.group) ∧
      ∀ e, e ∈ buildSummary s ↔
        e = ⟨e.group, readyCount s e.group, bestOf s e.group, peerWaiting s e.group, oldestAge s e.group⟩ ∧
          (s.groupRec e.group).defined = true ∧ (s.queue e.group ≠ [] ∨
            ∃ p, (s.agent p).state ≠ .loggedOut ∧ ∃ m ∈ (s.agent p).members, m.group = e.group)) ∧
    ∀ s : State, significantChange s = true ↔ ∃ (g : Group) (a b : Entry), a = figuresIn (buildSummary s) g ∧
      b = figuresIn (s.builder.lastSent.getD []) g ∧
      (a.ready ≠ b.ready ∨ a.waiting ≠ b.waiting ∨ a.best + 1024 ≤ b.best ∨ b.best + 1024 ≤ a.best)

/-- The receiver reads back every frame with its fields in range from the bytes the line carries for it: SYNC, kind,
source and destination, length, payload and check byte (R122, R123, 11.5); two-byte fields have the most significant byte first
(the model's choice, log entry 43). A byte is ten bit times: a dominant start bit, the data bits with the least significant
first, 1 recessive and 0 dominant, and a recessive stop bit; the pair is dominant when any station drives dominant; a station
drives the bytes of its attempt and nothing without one (R117, R119). Of two stations with different IDs that begin at once, one
at least has collided by the end of the third byte (R119, R120). -/
def Obligations.FramesReadBackFromTheLine : Prop :=
  (∀ f : Frame, BodyInRange f.body → receiveBytes f.bytes = some f ∧ bytesOfLevels f.levels = some f.bytes ∧
    f.bytes.length = 5 + f.body.payload.length ∧ f.body.payload.length ≤ 120) ∧
  (∀ bytes : List Byte, (runLevels bytes).length = 10 * bytes.length ∧
    ∀ (i : Nat) (h : i < bytes.length),
      (runLevels bytes)[10 * i]? = some .dominant ∧ (runLevels bytes)[10 * i + 9]? = some .recessive ∧
      ∀ j, j < 8 → (runLevels bytes)[10 * i + 1 + j]? =
        some (if bytes[i].getLsbD j = true then .recessive else .dominant)) ∧
  (∀ sending : List (List Level), ∀ i,
    (pairAt sending i = .dominant ↔ ∃ sent ∈ sending, sent[i]? = some .dominant) ∧
    (pairAt sending i = .recessive ↔ ∀ sent ∈ sending, sent[i]? ≠ some .dominant)) ∧
  (∀ s : State, (s.bus.line = none → s.lineLevels = []) ∧ ∀ f, s.bus.line = some f → s.lineLevels = f.levels) ∧
  ∀ f g : Frame, f.source ≠ g.source → ∃ i, i < 30 ∧
    (collidesAt [f.levels, g.levels] f.levels i ∨ collidesAt [f.levels, g.levels] g.levels i)

/-! ### Invariants of every step -/

/-- The invariants hold in the reset state. -/
def Obligations.ResetMeetsTheInvariants : Prop :=
  Bounded State.reset ∧ CountersBounded State.reset ∧ FifosFit State.reset ∧ BindingsAgree State.reset ∧
    QueuesAgree State.reset ∧ SendersAgree State.reset

/-- No step overfills a queue or the claim table, or takes a count out of its range. -/
def Obligations.StepKeepsBounded : Prop := ∀ s t : State, Bounded s → step s = .next t → Bounded t

/-- Every counter and accumulator stops at 65535. -/
def Obligations.StepKeepsCountersBounded : Prop := ∀ s t : State, CountersBounded s → step s = .next t → CountersBounded t

/-- No FIFO overflows. -/
def Obligations.StepKeepsFifosFit : Prop := ∀ s t : State, FifosFit s → step s = .next t → FifosFit t

/-- A call is bound to at most one agent, and claim records and CLAIMING agents match one to one. -/
def Obligations.StepKeepsBindingsAgree : Prop := ∀ s t : State, BindingsAgree s → step s = .next t → BindingsAgree t

/-- Queues hold exactly the calls that are occupied and not CONNECTED, in class order and within a class in the order of
arrival. -/
def Obligations.StepKeepsQueuesAgree : Prop := ∀ s t : State, QueuesAgree s → step s = .next t → QueuesAgree t

/-- Queued frames are ones the station state lets the station send, and the line carries the frame in hand, with this
station's ID as its source. -/
def Obligations.StepKeepsSendersAgree : Prop := ∀ s t : State, SendersAgree s → step s = .next t → SendersAgree t

end Statements
end

