-- ==== Sys2Proof/Laws/State.lean ====
section
/-! SUPPORT. One lemma for each field of State and each update of Machine/Ops.lean, and for each reading of a
record: true by `rfl`, so that no later proof unfolds a record update. -/

namespace Sys2Proof.Machine

@[simp] theorem State.modTime_cfg (s : State) (f : Timebase → Timebase) : (s.modTime f).cfg = s.cfg := rfl
@[simp] theorem State.modTime_load (s : State) (f : Timebase → Timebase) : (s.modTime f).load = s.load := rfl
@[simp] theorem State.modTime_time (s : State) (f : Timebase → Timebase) : (s.modTime f).time = f s.time := rfl
@[simp] theorem State.modTime_agents (s : State) (f : Timebase → Timebase) : (s.modTime f).agents = s.agents := rfl
@[simp] theorem State.modTime_calls (s : State) (f : Timebase → Timebase) : (s.modTime f).calls = s.calls := rfl
@[simp] theorem State.modTime_queues (s : State) (f : Timebase → Timebase) : (s.modTime f).queues = s.queues := rfl
@[simp] theorem State.modTime_counts (s : State) (f : Timebase → Timebase) : (s.modTime f).counts = s.counts := rfl
@[simp] theorem State.modTime_aht (s : State) (f : Timebase → Timebase) : (s.modTime f).aht = s.aht := rfl
@[simp] theorem State.modTime_deferrals (s : State) (f : Timebase → Timebase) : (s.modTime f).deferrals = s.deferrals := rfl
@[simp] theorem State.modTime_treat (s : State) (f : Timebase → Timebase) : (s.modTime f).treat = s.treat := rfl
@[simp] theorem State.modTime_clips (s : State) (f : Timebase → Timebase) : (s.modTime f).clips = s.clips := rfl
@[simp] theorem State.modTime_highway (s : State) (f : Timebase → Timebase) : (s.modTime f).highway = s.highway := rfl
@[simp] theorem State.modTime_exch (s : State) (f : Timebase → Timebase) : (s.modTime f).exch = s.exch := rfl
@[simp] theorem State.modTime_peers (s : State) (f : Timebase → Timebase) : (s.modTime f).peers = s.peers := rfl
@[simp] theorem State.modTime_builder (s : State) (f : Timebase → Timebase) : (s.modTime f).builder = s.builder := rfl
@[simp] theorem State.modTime_bus (s : State) (f : Timebase → Timebase) : (s.modTime f).bus = s.bus := rfl
@[simp] theorem State.modTime_port (s : State) (f : Timebase → Timebase) : (s.modTime f).port = s.port := rfl
@[simp] theorem State.modTime_pending (s : State) (f : Timebase → Timebase) : (s.modTime f).pending = s.pending := rfl

@[simp] theorem State.modTreat_cfg (s : State) (f : Treatment → Treatment) : (s.modTreat f).cfg = s.cfg := rfl
@[simp] theorem State.modTreat_load (s : State) (f : Treatment → Treatment) : (s.modTreat f).load = s.load := rfl
@[simp] theorem State.modTreat_time (s : State) (f : Treatment → Treatment) : (s.modTreat f).time = s.time := rfl
@[simp] theorem State.modTreat_agents (s : State) (f : Treatment → Treatment) : (s.modTreat f).agents = s.agents := rfl
@[simp] theorem State.modTreat_calls (s : State) (f : Treatment → Treatment) : (s.modTreat f).calls = s.calls := rfl
@[simp] theorem State.modTreat_queues (s : State) (f : Treatment → Treatment) : (s.modTreat f).queues = s.queues := rfl
@[simp] theorem State.modTreat_counts (s : State) (f : Treatment → Treatment) : (s.modTreat f).counts = s.counts := rfl
@[simp] theorem State.modTreat_aht (s : State) (f : Treatment → Treatment) : (s.modTreat f).aht = s.aht := rfl
@[simp] theorem State.modTreat_deferrals (s : State) (f : Treatment → Treatment) : (s.modTreat f).deferrals = s.deferrals := rfl
@[simp] theorem State.modTreat_treat (s : State) (f : Treatment → Treatment) : (s.modTreat f).treat = f s.treat := rfl
@[simp] theorem State.modTreat_clips (s : State) (f : Treatment → Treatment) : (s.modTreat f).clips = s.clips := rfl
@[simp] theorem State.modTreat_highway (s : State) (f : Treatment → Treatment) : (s.modTreat f).highway = s.highway := rfl
@[simp] theorem State.modTreat_exch (s : State) (f : Treatment → Treatment) : (s.modTreat f).exch = s.exch := rfl
@[simp] theorem State.modTreat_peers (s : State) (f : Treatment → Treatment) : (s.modTreat f).peers = s.peers := rfl
@[simp] theorem State.modTreat_builder (s : State) (f : Treatment → Treatment) : (s.modTreat f).builder = s.builder := rfl
@[simp] theorem State.modTreat_bus (s : State) (f : Treatment → Treatment) : (s.modTreat f).bus = s.bus := rfl
@[simp] theorem State.modTreat_port (s : State) (f : Treatment → Treatment) : (s.modTreat f).port = s.port := rfl
@[simp] theorem State.modTreat_pending (s : State) (f : Treatment → Treatment) : (s.modTreat f).pending = s.pending := rfl

@[simp] theorem State.modClips_cfg (s : State) (f : ClipFetch → ClipFetch) : (s.modClips f).cfg = s.cfg := rfl
@[simp] theorem State.modClips_load (s : State) (f : ClipFetch → ClipFetch) : (s.modClips f).load = s.load := rfl
@[simp] theorem State.modClips_time (s : State) (f : ClipFetch → ClipFetch) : (s.modClips f).time = s.time := rfl
@[simp] theorem State.modClips_agents (s : State) (f : ClipFetch → ClipFetch) : (s.modClips f).agents = s.agents := rfl
@[simp] theorem State.modClips_calls (s : State) (f : ClipFetch → ClipFetch) : (s.modClips f).calls = s.calls := rfl
@[simp] theorem State.modClips_queues (s : State) (f : ClipFetch → ClipFetch) : (s.modClips f).queues = s.queues := rfl
@[simp] theorem State.modClips_counts (s : State) (f : ClipFetch → ClipFetch) : (s.modClips f).counts = s.counts := rfl
@[simp] theorem State.modClips_aht (s : State) (f : ClipFetch → ClipFetch) : (s.modClips f).aht = s.aht := rfl
@[simp] theorem State.modClips_deferrals (s : State) (f : ClipFetch → ClipFetch) : (s.modClips f).deferrals = s.deferrals := rfl
@[simp] theorem State.modClips_treat (s : State) (f : ClipFetch → ClipFetch) : (s.modClips f).treat = s.treat := rfl
@[simp] theorem State.modClips_clips (s : State) (f : ClipFetch → ClipFetch) : (s.modClips f).clips = f s.clips := rfl
@[simp] theorem State.modClips_highway (s : State) (f : ClipFetch → ClipFetch) : (s.modClips f).highway = s.highway := rfl
@[simp] theorem State.modClips_exch (s : State) (f : ClipFetch → ClipFetch) : (s.modClips f).exch = s.exch := rfl
@[simp] theorem State.modClips_peers (s : State) (f : ClipFetch → ClipFetch) : (s.modClips f).peers = s.peers := rfl
@[simp] theorem State.modClips_builder (s : State) (f : ClipFetch → ClipFetch) : (s.modClips f).builder = s.builder := rfl
@[simp] theorem State.modClips_bus (s : State) (f : ClipFetch → ClipFetch) : (s.modClips f).bus = s.bus := rfl
@[simp] theorem State.modClips_port (s : State) (f : ClipFetch → ClipFetch) : (s.modClips f).port = s.port := rfl
@[simp] theorem State.modClips_pending (s : State) (f : ClipFetch → ClipFetch) : (s.modClips f).pending = s.pending := rfl

@[simp] theorem State.modExch_cfg (s : State) (f : Exchange → Exchange) : (s.modExch f).cfg = s.cfg := rfl
@[simp] theorem State.modExch_load (s : State) (f : Exchange → Exchange) : (s.modExch f).load = s.load := rfl
@[simp] theorem State.modExch_time (s : State) (f : Exchange → Exchange) : (s.modExch f).time = s.time := rfl
@[simp] theorem State.modExch_agents (s : State) (f : Exchange → Exchange) : (s.modExch f).agents = s.agents := rfl
@[simp] theorem State.modExch_calls (s : State) (f : Exchange → Exchange) : (s.modExch f).calls = s.calls := rfl
@[simp] theorem State.modExch_queues (s : State) (f : Exchange → Exchange) : (s.modExch f).queues = s.queues := rfl
@[simp] theorem State.modExch_counts (s : State) (f : Exchange → Exchange) : (s.modExch f).counts = s.counts := rfl
@[simp] theorem State.modExch_aht (s : State) (f : Exchange → Exchange) : (s.modExch f).aht = s.aht := rfl
@[simp] theorem State.modExch_deferrals (s : State) (f : Exchange → Exchange) : (s.modExch f).deferrals = s.deferrals := rfl
@[simp] theorem State.modExch_treat (s : State) (f : Exchange → Exchange) : (s.modExch f).treat = s.treat := rfl
@[simp] theorem State.modExch_clips (s : State) (f : Exchange → Exchange) : (s.modExch f).clips = s.clips := rfl
@[simp] theorem State.modExch_highway (s : State) (f : Exchange → Exchange) : (s.modExch f).highway = s.highway := rfl
@[simp] theorem State.modExch_exch (s : State) (f : Exchange → Exchange) : (s.modExch f).exch = f s.exch := rfl
@[simp] theorem State.modExch_peers (s : State) (f : Exchange → Exchange) : (s.modExch f).peers = s.peers := rfl
@[simp] theorem State.modExch_builder (s : State) (f : Exchange → Exchange) : (s.modExch f).builder = s.builder := rfl
@[simp] theorem State.modExch_bus (s : State) (f : Exchange → Exchange) : (s.modExch f).bus = s.bus := rfl
@[simp] theorem State.modExch_port (s : State) (f : Exchange → Exchange) : (s.modExch f).port = s.port := rfl
@[simp] theorem State.modExch_pending (s : State) (f : Exchange → Exchange) : (s.modExch f).pending = s.pending := rfl

@[simp] theorem State.modPeers_cfg (s : State) (f : PeerView → PeerView) : (s.modPeers f).cfg = s.cfg := rfl
@[simp] theorem State.modPeers_load (s : State) (f : PeerView → PeerView) : (s.modPeers f).load = s.load := rfl
@[simp] theorem State.modPeers_time (s : State) (f : PeerView → PeerView) : (s.modPeers f).time = s.time := rfl
@[simp] theorem State.modPeers_agents (s : State) (f : PeerView → PeerView) : (s.modPeers f).agents = s.agents := rfl
@[simp] theorem State.modPeers_calls (s : State) (f : PeerView → PeerView) : (s.modPeers f).calls = s.calls := rfl
@[simp] theorem State.modPeers_queues (s : State) (f : PeerView → PeerView) : (s.modPeers f).queues = s.queues := rfl
@[simp] theorem State.modPeers_counts (s : State) (f : PeerView → PeerView) : (s.modPeers f).counts = s.counts := rfl
@[simp] theorem State.modPeers_aht (s : State) (f : PeerView → PeerView) : (s.modPeers f).aht = s.aht := rfl
@[simp] theorem State.modPeers_deferrals (s : State) (f : PeerView → PeerView) : (s.modPeers f).deferrals = s.deferrals := rfl
@[simp] theorem State.modPeers_treat (s : State) (f : PeerView → PeerView) : (s.modPeers f).treat = s.treat := rfl
@[simp] theorem State.modPeers_clips (s : State) (f : PeerView → PeerView) : (s.modPeers f).clips = s.clips := rfl
@[simp] theorem State.modPeers_highway (s : State) (f : PeerView → PeerView) : (s.modPeers f).highway = s.highway := rfl
@[simp] theorem State.modPeers_exch (s : State) (f : PeerView → PeerView) : (s.modPeers f).exch = s.exch := rfl
@[simp] theorem State.modPeers_peers (s : State) (f : PeerView → PeerView) : (s.modPeers f).peers = f s.peers := rfl
@[simp] theorem State.modPeers_builder (s : State) (f : PeerView → PeerView) : (s.modPeers f).builder = s.builder := rfl
@[simp] theorem State.modPeers_bus (s : State) (f : PeerView → PeerView) : (s.modPeers f).bus = s.bus := rfl
@[simp] theorem State.modPeers_port (s : State) (f : PeerView → PeerView) : (s.modPeers f).port = s.port := rfl
@[simp] theorem State.modPeers_pending (s : State) (f : PeerView → PeerView) : (s.modPeers f).pending = s.pending := rfl

@[simp] theorem State.modBuilder_cfg (s : State) (f : Builder → Builder) : (s.modBuilder f).cfg = s.cfg := rfl
@[simp] theorem State.modBuilder_load (s : State) (f : Builder → Builder) : (s.modBuilder f).load = s.load := rfl
@[simp] theorem State.modBuilder_time (s : State) (f : Builder → Builder) : (s.modBuilder f).time = s.time := rfl
@[simp] theorem State.modBuilder_agents (s : State) (f : Builder → Builder) : (s.modBuilder f).agents = s.agents := rfl
@[simp] theorem State.modBuilder_calls (s : State) (f : Builder → Builder) : (s.modBuilder f).calls = s.calls := rfl
@[simp] theorem State.modBuilder_queues (s : State) (f : Builder → Builder) : (s.modBuilder f).queues = s.queues := rfl
@[simp] theorem State.modBuilder_counts (s : State) (f : Builder → Builder) : (s.modBuilder f).counts = s.counts := rfl
@[simp] theorem State.modBuilder_aht (s : State) (f : Builder → Builder) : (s.modBuilder f).aht = s.aht := rfl
@[simp] theorem State.modBuilder_deferrals (s : State) (f : Builder → Builder) : (s.modBuilder f).deferrals = s.deferrals := rfl
@[simp] theorem State.modBuilder_treat (s : State) (f : Builder → Builder) : (s.modBuilder f).treat = s.treat := rfl
@[simp] theorem State.modBuilder_clips (s : State) (f : Builder → Builder) : (s.modBuilder f).clips = s.clips := rfl
@[simp] theorem State.modBuilder_highway (s : State) (f : Builder → Builder) : (s.modBuilder f).highway = s.highway := rfl
@[simp] theorem State.modBuilder_exch (s : State) (f : Builder → Builder) : (s.modBuilder f).exch = s.exch := rfl
@[simp] theorem State.modBuilder_peers (s : State) (f : Builder → Builder) : (s.modBuilder f).peers = s.peers := rfl
@[simp] theorem State.modBuilder_builder (s : State) (f : Builder → Builder) : (s.modBuilder f).builder = f s.builder := rfl
@[simp] theorem State.modBuilder_bus (s : State) (f : Builder → Builder) : (s.modBuilder f).bus = s.bus := rfl
@[simp] theorem State.modBuilder_port (s : State) (f : Builder → Builder) : (s.modBuilder f).port = s.port := rfl
@[simp] theorem State.modBuilder_pending (s : State) (f : Builder → Builder) : (s.modBuilder f).pending = s.pending := rfl

@[simp] theorem State.modBus_cfg (s : State) (f : Bus → Bus) : (s.modBus f).cfg = s.cfg := rfl
@[simp] theorem State.modBus_load (s : State) (f : Bus → Bus) : (s.modBus f).load = s.load := rfl
@[simp] theorem State.modBus_time (s : State) (f : Bus → Bus) : (s.modBus f).time = s.time := rfl
@[simp] theorem State.modBus_agents (s : State) (f : Bus → Bus) : (s.modBus f).agents = s.agents := rfl
@[simp] theorem State.modBus_calls (s : State) (f : Bus → Bus) : (s.modBus f).calls = s.calls := rfl
@[simp] theorem State.modBus_queues (s : State) (f : Bus → Bus) : (s.modBus f).queues = s.queues := rfl
@[simp] theorem State.modBus_counts (s : State) (f : Bus → Bus) : (s.modBus f).counts = s.counts := rfl
@[simp] theorem State.modBus_aht (s : State) (f : Bus → Bus) : (s.modBus f).aht = s.aht := rfl
@[simp] theorem State.modBus_deferrals (s : State) (f : Bus → Bus) : (s.modBus f).deferrals = s.deferrals := rfl
@[simp] theorem State.modBus_treat (s : State) (f : Bus → Bus) : (s.modBus f).treat = s.treat := rfl
@[simp] theorem State.modBus_clips (s : State) (f : Bus → Bus) : (s.modBus f).clips = s.clips := rfl
@[simp] theorem State.modBus_highway (s : State) (f : Bus → Bus) : (s.modBus f).highway = s.highway := rfl
@[simp] theorem State.modBus_exch (s : State) (f : Bus → Bus) : (s.modBus f).exch = s.exch := rfl
@[simp] theorem State.modBus_peers (s : State) (f : Bus → Bus) : (s.modBus f).peers = s.peers := rfl
@[simp] theorem State.modBus_builder (s : State) (f : Bus → Bus) : (s.modBus f).builder = s.builder := rfl
@[simp] theorem State.modBus_bus (s : State) (f : Bus → Bus) : (s.modBus f).bus = f s.bus := rfl
@[simp] theorem State.modBus_port (s : State) (f : Bus → Bus) : (s.modBus f).port = s.port := rfl
@[simp] theorem State.modBus_pending (s : State) (f : Bus → Bus) : (s.modBus f).pending = s.pending := rfl

@[simp] theorem State.modPort_cfg (s : State) (f : Port → Port) : (s.modPort f).cfg = s.cfg := rfl
@[simp] theorem State.modPort_load (s : State) (f : Port → Port) : (s.modPort f).load = s.load := rfl
@[simp] theorem State.modPort_time (s : State) (f : Port → Port) : (s.modPort f).time = s.time := rfl
@[simp] theorem State.modPort_agents (s : State) (f : Port → Port) : (s.modPort f).agents = s.agents := rfl
@[simp] theorem State.modPort_calls (s : State) (f : Port → Port) : (s.modPort f).calls = s.calls := rfl
@[simp] theorem State.modPort_queues (s : State) (f : Port → Port) : (s.modPort f).queues = s.queues := rfl
@[simp] theorem State.modPort_counts (s : State) (f : Port → Port) : (s.modPort f).counts = s.counts := rfl
@[simp] theorem State.modPort_aht (s : State) (f : Port → Port) : (s.modPort f).aht = s.aht := rfl
@[simp] theorem State.modPort_deferrals (s : State) (f : Port → Port) : (s.modPort f).deferrals = s.deferrals := rfl
@[simp] theorem State.modPort_treat (s : State) (f : Port → Port) : (s.modPort f).treat = s.treat := rfl
@[simp] theorem State.modPort_clips (s : State) (f : Port → Port) : (s.modPort f).clips = s.clips := rfl
@[simp] theorem State.modPort_highway (s : State) (f : Port → Port) : (s.modPort f).highway = s.highway := rfl
@[simp] theorem State.modPort_exch (s : State) (f : Port → Port) : (s.modPort f).exch = s.exch := rfl
@[simp] theorem State.modPort_peers (s : State) (f : Port → Port) : (s.modPort f).peers = s.peers := rfl
@[simp] theorem State.modPort_builder (s : State) (f : Port → Port) : (s.modPort f).builder = s.builder := rfl
@[simp] theorem State.modPort_bus (s : State) (f : Port → Port) : (s.modPort f).bus = s.bus := rfl
@[simp] theorem State.modPort_port (s : State) (f : Port → Port) : (s.modPort f).port = f s.port := rfl
@[simp] theorem State.modPort_pending (s : State) (f : Port → Port) : (s.modPort f).pending = s.pending := rfl

@[simp] theorem State.modLoad_cfg (s : State) (f : LoadUnit → LoadUnit) : (s.modLoad f).cfg = s.cfg := rfl
@[simp] theorem State.modLoad_load (s : State) (f : LoadUnit → LoadUnit) : (s.modLoad f).load = f s.load := rfl
@[simp] theorem State.modLoad_time (s : State) (f : LoadUnit → LoadUnit) : (s.modLoad f).time = s.time := rfl
@[simp] theorem State.modLoad_agents (s : State) (f : LoadUnit → LoadUnit) : (s.modLoad f).agents = s.agents := rfl
@[simp] theorem State.modLoad_calls (s : State) (f : LoadUnit → LoadUnit) : (s.modLoad f).calls = s.calls := rfl
@[simp] theorem State.modLoad_queues (s : State) (f : LoadUnit → LoadUnit) : (s.modLoad f).queues = s.queues := rfl
@[simp] theorem State.modLoad_counts (s : State) (f : LoadUnit → LoadUnit) : (s.modLoad f).counts = s.counts := rfl
@[simp] theorem State.modLoad_aht (s : State) (f : LoadUnit → LoadUnit) : (s.modLoad f).aht = s.aht := rfl
@[simp] theorem State.modLoad_deferrals (s : State) (f : LoadUnit → LoadUnit) : (s.modLoad f).deferrals = s.deferrals := rfl
@[simp] theorem State.modLoad_treat (s : State) (f : LoadUnit → LoadUnit) : (s.modLoad f).treat = s.treat := rfl
@[simp] theorem State.modLoad_clips (s : State) (f : LoadUnit → LoadUnit) : (s.modLoad f).clips = s.clips := rfl
@[simp] theorem State.modLoad_highway (s : State) (f : LoadUnit → LoadUnit) : (s.modLoad f).highway = s.highway := rfl
@[simp] theorem State.modLoad_exch (s : State) (f : LoadUnit → LoadUnit) : (s.modLoad f).exch = s.exch := rfl
@[simp] theorem State.modLoad_peers (s : State) (f : LoadUnit → LoadUnit) : (s.modLoad f).peers = s.peers := rfl
@[simp] theorem State.modLoad_builder (s : State) (f : LoadUnit → LoadUnit) : (s.modLoad f).builder = s.builder := rfl
@[simp] theorem State.modLoad_bus (s : State) (f : LoadUnit → LoadUnit) : (s.modLoad f).bus = s.bus := rfl
@[simp] theorem State.modLoad_port (s : State) (f : LoadUnit → LoadUnit) : (s.modLoad f).port = s.port := rfl
@[simp] theorem State.modLoad_pending (s : State) (f : LoadUnit → LoadUnit) : (s.modLoad f).pending = s.pending := rfl

@[simp] theorem State.setHighway_cfg (s : State) (v : Vector (Option Byte) 32) : (s.setHighway v).cfg = s.cfg := rfl
@[simp] theorem State.setHighway_load (s : State) (v : Vector (Option Byte) 32) : (s.setHighway v).load = s.load := rfl
@[simp] theorem State.setHighway_time (s : State) (v : Vector (Option Byte) 32) : (s.setHighway v).time = s.time := rfl
@[simp] theorem State.setHighway_agents (s : State) (v : Vector (Option Byte) 32) : (s.setHighway v).agents = s.agents := rfl
@[simp] theorem State.setHighway_calls (s : State) (v : Vector (Option Byte) 32) : (s.setHighway v).calls = s.calls := rfl
@[simp] theorem State.setHighway_queues (s : State) (v : Vector (Option Byte) 32) : (s.setHighway v).queues = s.queues := rfl
@[simp] theorem State.setHighway_counts (s : State) (v : Vector (Option Byte) 32) : (s.setHighway v).counts = s.counts := rfl
@[simp] theorem State.setHighway_aht (s : State) (v : Vector (Option Byte) 32) : (s.setHighway v).aht = s.aht := rfl
@[simp] theorem State.setHighway_deferrals (s : State) (v : Vector (Option Byte) 32) : (s.setHighway v).deferrals = s.deferrals := rfl
@[simp] theorem State.setHighway_treat (s : State) (v : Vector (Option Byte) 32) : (s.setHighway v).treat = s.treat := rfl
@[simp] theorem State.setHighway_clips (s : State) (v : Vector (Option Byte) 32) : (s.setHighway v).clips = s.clips := rfl
@[simp] theorem State.setHighway_highway (s : State) (v : Vector (Option Byte) 32) : (s.setHighway v).highway = v := rfl
@[simp] theorem State.setHighway_exch (s : State) (v : Vector (Option Byte) 32) : (s.setHighway v).exch = s.exch := rfl
@[simp] theorem State.setHighway_peers (s : State) (v : Vector (Option Byte) 32) : (s.setHighway v).peers = s.peers := rfl
@[simp] theorem State.setHighway_builder (s : State) (v : Vector (Option Byte) 32) : (s.setHighway v).builder = s.builder := rfl
@[simp] theorem State.setHighway_bus (s : State) (v : Vector (Option Byte) 32) : (s.setHighway v).bus = s.bus := rfl
@[simp] theorem State.setHighway_port (s : State) (v : Vector (Option Byte) 32) : (s.setHighway v).port = s.port := rfl
@[simp] theorem State.setHighway_pending (s : State) (v : Vector (Option Byte) 32) : (s.setHighway v).pending = s.pending := rfl

@[simp] theorem State.setAht_cfg (s : State) (g : Group) (n : Nat) : (s.setAht g n).cfg = s.cfg := rfl
@[simp] theorem State.setAht_load (s : State) (g : Group) (n : Nat) : (s.setAht g n).load = s.load := rfl
@[simp] theorem State.setAht_time (s : State) (g : Group) (n : Nat) : (s.setAht g n).time = s.time := rfl
@[simp] theorem State.setAht_agents (s : State) (g : Group) (n : Nat) : (s.setAht g n).agents = s.agents := rfl
@[simp] theorem State.setAht_calls (s : State) (g : Group) (n : Nat) : (s.setAht g n).calls = s.calls := rfl
@[simp] theorem State.setAht_queues (s : State) (g : Group) (n : Nat) : (s.setAht g n).queues = s.queues := rfl
@[simp] theorem State.setAht_counts (s : State) (g : Group) (n : Nat) : (s.setAht g n).counts = s.counts := rfl
@[simp] theorem State.setAht_aht (s : State) (g : Group) (n : Nat) : (s.setAht g n).aht = alter s.aht g fun _ => n := rfl
@[simp] theorem State.setAht_deferrals (s : State) (g : Group) (n : Nat) : (s.setAht g n).deferrals = s.deferrals := rfl
@[simp] theorem State.setAht_treat (s : State) (g : Group) (n : Nat) : (s.setAht g n).treat = s.treat := rfl
@[simp] theorem State.setAht_clips (s : State) (g : Group) (n : Nat) : (s.setAht g n).clips = s.clips := rfl
@[simp] theorem State.setAht_highway (s : State) (g : Group) (n : Nat) : (s.setAht g n).highway = s.highway := rfl
@[simp] theorem State.setAht_exch (s : State) (g : Group) (n : Nat) : (s.setAht g n).exch = s.exch := rfl
@[simp] theorem State.setAht_peers (s : State) (g : Group) (n : Nat) : (s.setAht g n).peers = s.peers := rfl
@[simp] theorem State.setAht_builder (s : State) (g : Group) (n : Nat) : (s.setAht g n).builder = s.builder := rfl
@[simp] theorem State.setAht_bus (s : State) (g : Group) (n : Nat) : (s.setAht g n).bus = s.bus := rfl
@[simp] theorem State.setAht_port (s : State) (g : Group) (n : Nat) : (s.setAht g n).port = s.port := rfl
@[simp] theorem State.setAht_pending (s : State) (g : Group) (n : Nat) : (s.setAht g n).pending = s.pending := rfl

@[simp] theorem State.setDeferrals_cfg (s : State) (n : Nat) : (s.setDeferrals n).cfg = s.cfg := rfl
@[simp] theorem State.setDeferrals_load (s : State) (n : Nat) : (s.setDeferrals n).load = s.load := rfl
@[simp] theorem State.setDeferrals_time (s : State) (n : Nat) : (s.setDeferrals n).time = s.time := rfl
@[simp] theorem State.setDeferrals_agents (s : State) (n : Nat) : (s.setDeferrals n).agents = s.agents := rfl
@[simp] theorem State.setDeferrals_calls (s : State) (n : Nat) : (s.setDeferrals n).calls = s.calls := rfl
@[simp] theorem State.setDeferrals_queues (s : State) (n : Nat) : (s.setDeferrals n).queues = s.queues := rfl
@[simp] theorem State.setDeferrals_counts (s : State) (n : Nat) : (s.setDeferrals n).counts = s.counts := rfl
@[simp] theorem State.setDeferrals_aht (s : State) (n : Nat) : (s.setDeferrals n).aht = s.aht := rfl
@[simp] theorem State.setDeferrals_deferrals (s : State) (n : Nat) : (s.setDeferrals n).deferrals = n := rfl
@[simp] theorem State.setDeferrals_treat (s : State) (n : Nat) : (s.setDeferrals n).treat = s.treat := rfl
@[simp] theorem State.setDeferrals_clips (s : State) (n : Nat) : (s.setDeferrals n).clips = s.clips := rfl
@[simp] theorem State.setDeferrals_highway (s : State) (n : Nat) : (s.setDeferrals n).highway = s.highway := rfl
@[simp] theorem State.setDeferrals_exch (s : State) (n : Nat) : (s.setDeferrals n).exch = s.exch := rfl
@[simp] theorem State.setDeferrals_peers (s : State) (n : Nat) : (s.setDeferrals n).peers = s.peers := rfl
@[simp] theorem State.setDeferrals_builder (s : State) (n : Nat) : (s.setDeferrals n).builder = s.builder := rfl
@[simp] theorem State.setDeferrals_bus (s : State) (n : Nat) : (s.setDeferrals n).bus = s.bus := rfl
@[simp] theorem State.setDeferrals_port (s : State) (n : Nat) : (s.setDeferrals n).port = s.port := rfl
@[simp] theorem State.setDeferrals_pending (s : State) (n : Nat) : (s.setDeferrals n).pending = s.pending := rfl

@[simp] theorem State.alterAgent_cfg (s : State) (p : Position) (f : Agent → Agent) : (s.alterAgent p f).cfg = s.cfg := rfl
@[simp] theorem State.alterAgent_load (s : State) (p : Position) (f : Agent → Agent) : (s.alterAgent p f).load = s.load := rfl
@[simp] theorem State.alterAgent_time (s : State) (p : Position) (f : Agent → Agent) : (s.alterAgent p f).time = s.time := rfl
@[simp] theorem State.alterAgent_agents (s : State) (p : Position) (f : Agent → Agent) : (s.alterAgent p f).agents = alter s.agents p f := rfl
@[simp] theorem State.alterAgent_calls (s : State) (p : Position) (f : Agent → Agent) : (s.alterAgent p f).calls = s.calls := rfl
@[simp] theorem State.alterAgent_queues (s : State) (p : Position) (f : Agent → Agent) : (s.alterAgent p f).queues = s.queues := rfl
@[simp] theorem State.alterAgent_counts (s : State) (p : Position) (f : Agent → Agent) : (s.alterAgent p f).counts = s.counts := rfl
@[simp] theorem State.alterAgent_aht (s : State) (p : Position) (f : Agent → Agent) : (s.alterAgent p f).aht = s.aht := rfl
@[simp] theorem State.alterAgent_deferrals (s : State) (p : Position) (f : Agent → Agent) : (s.alterAgent p f).deferrals = s.deferrals := rfl
@[simp] theorem State.alterAgent_treat (s : State) (p : Position) (f : Agent → Agent) : (s.alterAgent p f).treat = s.treat := rfl
@[simp] theorem State.alterAgent_clips (s : State) (p : Position) (f : Agent → Agent) : (s.alterAgent p f).clips = s.clips := rfl
@[simp] theorem State.alterAgent_highway (s : State) (p : Position) (f : Agent → Agent) : (s.alterAgent p f).highway = s.highway := rfl
@[simp] theorem State.alterAgent_exch (s : State) (p : Position) (f : Agent → Agent) : (s.alterAgent p f).exch = s.exch := rfl
@[simp] theorem State.alterAgent_peers (s : State) (p : Position) (f : Agent → Agent) : (s.alterAgent p f).peers = s.peers := rfl
@[simp] theorem State.alterAgent_builder (s : State) (p : Position) (f : Agent → Agent) : (s.alterAgent p f).builder = s.builder := rfl
@[simp] theorem State.alterAgent_bus (s : State) (p : Position) (f : Agent → Agent) : (s.alterAgent p f).bus = s.bus := rfl
@[simp] theorem State.alterAgent_port (s : State) (p : Position) (f : Agent → Agent) : (s.alterAgent p f).port = s.port := rfl
@[simp] theorem State.alterAgent_pending (s : State) (p : Position) (f : Agent → Agent) : (s.alterAgent p f).pending = s.pending := rfl

@[simp] theorem State.alterSlot_cfg (s : State) (c : Slot) (f : CallSlot → CallSlot) : (s.alterSlot c f).cfg = s.cfg := rfl
@[simp] theorem State.alterSlot_load (s : State) (c : Slot) (f : CallSlot → CallSlot) : (s.alterSlot c f).load = s.load := rfl
@[simp] theorem State.alterSlot_time (s : State) (c : Slot) (f : CallSlot → CallSlot) : (s.alterSlot c f).time = s.time := rfl
@[simp] theorem State.alterSlot_agents (s : State) (c : Slot) (f : CallSlot → CallSlot) : (s.alterSlot c f).agents = s.agents := rfl
@[simp] theorem State.alterSlot_calls (s : State) (c : Slot) (f : CallSlot → CallSlot) : (s.alterSlot c f).calls = alter s.calls c f := rfl
@[simp] theorem State.alterSlot_queues (s : State) (c : Slot) (f : CallSlot → CallSlot) : (s.alterSlot c f).queues = s.queues := rfl
@[simp] theorem State.alterSlot_counts (s : State) (c : Slot) (f : CallSlot → CallSlot) : (s.alterSlot c f).counts = s.counts := rfl
@[simp] theorem State.alterSlot_aht (s : State) (c : Slot) (f : CallSlot → CallSlot) : (s.alterSlot c f).aht = s.aht := rfl
@[simp] theorem State.alterSlot_deferrals (s : State) (c : Slot) (f : CallSlot → CallSlot) : (s.alterSlot c f).deferrals = s.deferrals := rfl
@[simp] theorem State.alterSlot_treat (s : State) (c : Slot) (f : CallSlot → CallSlot) : (s.alterSlot c f).treat = s.treat := rfl
@[simp] theorem State.alterSlot_clips (s : State) (c : Slot) (f : CallSlot → CallSlot) : (s.alterSlot c f).clips = s.clips := rfl
@[simp] theorem State.alterSlot_highway (s : State) (c : Slot) (f : CallSlot → CallSlot) : (s.alterSlot c f).highway = s.highway := rfl
@[simp] theorem State.alterSlot_exch (s : State) (c : Slot) (f : CallSlot → CallSlot) : (s.alterSlot c f).exch = s.exch := rfl
@[simp] theorem State.alterSlot_peers (s : State) (c : Slot) (f : CallSlot → CallSlot) : (s.alterSlot c f).peers = s.peers := rfl
@[simp] theorem State.alterSlot_builder (s : State) (c : Slot) (f : CallSlot → CallSlot) : (s.alterSlot c f).builder = s.builder := rfl
@[simp] theorem State.alterSlot_bus (s : State) (c : Slot) (f : CallSlot → CallSlot) : (s.alterSlot c f).bus = s.bus := rfl
@[simp] theorem State.alterSlot_port (s : State) (c : Slot) (f : CallSlot → CallSlot) : (s.alterSlot c f).port = s.port := rfl
@[simp] theorem State.alterSlot_pending (s : State) (c : Slot) (f : CallSlot → CallSlot) : (s.alterSlot c f).pending = s.pending := rfl

@[simp] theorem State.alterQueue_cfg (s : State) (g : Group) (f : List Slot → List Slot) : (s.alterQueue g f).cfg = s.cfg := rfl
@[simp] theorem State.alterQueue_load (s : State) (g : Group) (f : List Slot → List Slot) : (s.alterQueue g f).load = s.load := rfl
@[simp] theorem State.alterQueue_time (s : State) (g : Group) (f : List Slot → List Slot) : (s.alterQueue g f).time = s.time := rfl
@[simp] theorem State.alterQueue_agents (s : State) (g : Group) (f : List Slot → List Slot) : (s.alterQueue g f).agents = s.agents := rfl
@[simp] theorem State.alterQueue_calls (s : State) (g : Group) (f : List Slot → List Slot) : (s.alterQueue g f).calls = s.calls := rfl
@[simp] theorem State.alterQueue_queues (s : State) (g : Group) (f : List Slot → List Slot) : (s.alterQueue g f).queues = alter s.queues g f := rfl
@[simp] theorem State.alterQueue_counts (s : State) (g : Group) (f : List Slot → List Slot) : (s.alterQueue g f).counts = s.counts := rfl
@[simp] theorem State.alterQueue_aht (s : State) (g : Group) (f : List Slot → List Slot) : (s.alterQueue g f).aht = s.aht := rfl
@[simp] theorem State.alterQueue_deferrals (s : State) (g : Group) (f : List Slot → List Slot) : (s.alterQueue g f).deferrals = s.deferrals := rfl
@[simp] theorem State.alterQueue_treat (s : State) (g : Group) (f : List Slot → List Slot) : (s.alterQueue g f).treat = s.treat := rfl
@[simp] theorem State.alterQueue_clips (s : State) (g : Group) (f : List Slot → List Slot) : (s.alterQueue g f).clips = s.clips := rfl
@[simp] theorem State.alterQueue_highway (s : State) (g : Group) (f : List Slot → List Slot) : (s.alterQueue g f).highway = s.highway := rfl
@[simp] theorem State.alterQueue_exch (s : State) (g : Group) (f : List Slot → List Slot) : (s.alterQueue g f).exch = s.exch := rfl
@[simp] theorem State.alterQueue_peers (s : State) (g : Group) (f : List Slot → List Slot) : (s.alterQueue g f).peers = s.peers := rfl
@[simp] theorem State.alterQueue_builder (s : State) (g : Group) (f : List Slot → List Slot) : (s.alterQueue g f).builder = s.builder := rfl
@[simp] theorem State.alterQueue_bus (s : State) (g : Group) (f : List Slot → List Slot) : (s.alterQueue g f).bus = s.bus := rfl
@[simp] theorem State.alterQueue_port (s : State) (g : Group) (f : List Slot → List Slot) : (s.alterQueue g f).port = s.port := rfl
@[simp] theorem State.alterQueue_pending (s : State) (g : Group) (f : List Slot → List Slot) : (s.alterQueue g f).pending = s.pending := rfl

@[simp] theorem State.alterCounts_cfg (s : State) (g : Group) (f : GroupCounts → GroupCounts) : (s.alterCounts g f).cfg = s.cfg := rfl
@[simp] theorem State.alterCounts_load (s : State) (g : Group) (f : GroupCounts → GroupCounts) : (s.alterCounts g f).load = s.load := rfl
@[simp] theorem State.alterCounts_time (s : State) (g : Group) (f : GroupCounts → GroupCounts) : (s.alterCounts g f).time = s.time := rfl
@[simp] theorem State.alterCounts_agents (s : State) (g : Group) (f : GroupCounts → GroupCounts) : (s.alterCounts g f).agents = s.agents := rfl
@[simp] theorem State.alterCounts_calls (s : State) (g : Group) (f : GroupCounts → GroupCounts) : (s.alterCounts g f).calls = s.calls := rfl
@[simp] theorem State.alterCounts_queues (s : State) (g : Group) (f : GroupCounts → GroupCounts) : (s.alterCounts g f).queues = s.queues := rfl
@[simp] theorem State.alterCounts_counts (s : State) (g : Group) (f : GroupCounts → GroupCounts) : (s.alterCounts g f).counts = alter s.counts g f := rfl
@[simp] theorem State.alterCounts_aht (s : State) (g : Group) (f : GroupCounts → GroupCounts) : (s.alterCounts g f).aht = s.aht := rfl
@[simp] theorem State.alterCounts_deferrals (s : State) (g : Group) (f : GroupCounts → GroupCounts) : (s.alterCounts g f).deferrals = s.deferrals := rfl
@[simp] theorem State.alterCounts_treat (s : State) (g : Group) (f : GroupCounts → GroupCounts) : (s.alterCounts g f).treat = s.treat := rfl
@[simp] theorem State.alterCounts_clips (s : State) (g : Group) (f : GroupCounts → GroupCounts) : (s.alterCounts g f).clips = s.clips := rfl
@[simp] theorem State.alterCounts_highway (s : State) (g : Group) (f : GroupCounts → GroupCounts) : (s.alterCounts g f).highway = s.highway := rfl
@[simp] theorem State.alterCounts_exch (s : State) (g : Group) (f : GroupCounts → GroupCounts) : (s.alterCounts g f).exch = s.exch := rfl
@[simp] theorem State.alterCounts_peers (s : State) (g : Group) (f : GroupCounts → GroupCounts) : (s.alterCounts g f).peers = s.peers := rfl
@[simp] theorem State.alterCounts_builder (s : State) (g : Group) (f : GroupCounts → GroupCounts) : (s.alterCounts g f).builder = s.builder := rfl
@[simp] theorem State.alterCounts_bus (s : State) (g : Group) (f : GroupCounts → GroupCounts) : (s.alterCounts g f).bus = s.bus := rfl
@[simp] theorem State.alterCounts_port (s : State) (g : Group) (f : GroupCounts → GroupCounts) : (s.alterCounts g f).port = s.port := rfl
@[simp] theorem State.alterCounts_pending (s : State) (g : Group) (f : GroupCounts → GroupCounts) : (s.alterCounts g f).pending = s.pending := rfl

@[simp] theorem State.alterCall_cfg (s : State) (c : Slot) (f : Call → Call) : (s.alterCall c f).cfg = s.cfg := rfl
@[simp] theorem State.alterCall_load (s : State) (c : Slot) (f : Call → Call) : (s.alterCall c f).load = s.load := rfl
@[simp] theorem State.alterCall_time (s : State) (c : Slot) (f : Call → Call) : (s.alterCall c f).time = s.time := rfl
@[simp] theorem State.alterCall_agents (s : State) (c : Slot) (f : Call → Call) : (s.alterCall c f).agents = s.agents := rfl
@[simp] theorem State.alterCall_calls (s : State) (c : Slot) (f : Call → Call) : (s.alterCall c f).calls = alter s.calls c fun k => { k with call := k.call.map f } := rfl
@[simp] theorem State.alterCall_queues (s : State) (c : Slot) (f : Call → Call) : (s.alterCall c f).queues = s.queues := rfl
@[simp] theorem State.alterCall_counts (s : State) (c : Slot) (f : Call → Call) : (s.alterCall c f).counts = s.counts := rfl
@[simp] theorem State.alterCall_aht (s : State) (c : Slot) (f : Call → Call) : (s.alterCall c f).aht = s.aht := rfl
@[simp] theorem State.alterCall_deferrals (s : State) (c : Slot) (f : Call → Call) : (s.alterCall c f).deferrals = s.deferrals := rfl
@[simp] theorem State.alterCall_treat (s : State) (c : Slot) (f : Call → Call) : (s.alterCall c f).treat = s.treat := rfl
@[simp] theorem State.alterCall_clips (s : State) (c : Slot) (f : Call → Call) : (s.alterCall c f).clips = s.clips := rfl
@[simp] theorem State.alterCall_highway (s : State) (c : Slot) (f : Call → Call) : (s.alterCall c f).highway = s.highway := rfl
@[simp] theorem State.alterCall_exch (s : State) (c : Slot) (f : Call → Call) : (s.alterCall c f).exch = s.exch := rfl
@[simp] theorem State.alterCall_peers (s : State) (c : Slot) (f : Call → Call) : (s.alterCall c f).peers = s.peers := rfl
@[simp] theorem State.alterCall_builder (s : State) (c : Slot) (f : Call → Call) : (s.alterCall c f).builder = s.builder := rfl
@[simp] theorem State.alterCall_bus (s : State) (c : Slot) (f : Call → Call) : (s.alterCall c f).bus = s.bus := rfl
@[simp] theorem State.alterCall_port (s : State) (c : Slot) (f : Call → Call) : (s.alterCall c f).port = s.port := rfl
@[simp] theorem State.alterCall_pending (s : State) (c : Slot) (f : Call → Call) : (s.alterCall c f).pending = s.pending := rfl

@[simp] theorem State.alterContext_cfg (s : State) (c : Slot) (f : Context → Context) : (s.alterContext c f).cfg = s.cfg := rfl
@[simp] theorem State.alterContext_load (s : State) (c : Slot) (f : Context → Context) : (s.alterContext c f).load = s.load := rfl
@[simp] theorem State.alterContext_time (s : State) (c : Slot) (f : Context → Context) : (s.alterContext c f).time = s.time := rfl
@[simp] theorem State.alterContext_agents (s : State) (c : Slot) (f : Context → Context) : (s.alterContext c f).agents = s.agents := rfl
@[simp] theorem State.alterContext_calls (s : State) (c : Slot) (f : Context → Context) : (s.alterContext c f).calls = alter s.calls c fun k => { k with call := k.call.map fun x => { x with context := x.context.map f } } := rfl
@[simp] theorem State.alterContext_queues (s : State) (c : Slot) (f : Context → Context) : (s.alterContext c f).queues = s.queues := rfl
@[simp] theorem State.alterContext_counts (s : State) (c : Slot) (f : Context → Context) : (s.alterContext c f).counts = s.counts := rfl
@[simp] theorem State.alterContext_aht (s : State) (c : Slot) (f : Context → Context) : (s.alterContext c f).aht = s.aht := rfl
@[simp] theorem State.alterContext_deferrals (s : State) (c : Slot) (f : Context → Context) : (s.alterContext c f).deferrals = s.deferrals := rfl
@[simp] theorem State.alterContext_treat (s : State) (c : Slot) (f : Context → Context) : (s.alterContext c f).treat = s.treat := rfl
@[simp] theorem State.alterContext_clips (s : State) (c : Slot) (f : Context → Context) : (s.alterContext c f).clips = s.clips := rfl
@[simp] theorem State.alterContext_highway (s : State) (c : Slot) (f : Context → Context) : (s.alterContext c f).highway = s.highway := rfl
@[simp] theorem State.alterContext_exch (s : State) (c : Slot) (f : Context → Context) : (s.alterContext c f).exch = s.exch := rfl
@[simp] theorem State.alterContext_peers (s : State) (c : Slot) (f : Context → Context) : (s.alterContext c f).peers = s.peers := rfl
@[simp] theorem State.alterContext_builder (s : State) (c : Slot) (f : Context → Context) : (s.alterContext c f).builder = s.builder := rfl
@[simp] theorem State.alterContext_bus (s : State) (c : Slot) (f : Context → Context) : (s.alterContext c f).bus = s.bus := rfl
@[simp] theorem State.alterContext_port (s : State) (c : Slot) (f : Context → Context) : (s.alterContext c f).port = s.port := rfl
@[simp] theorem State.alterContext_pending (s : State) (c : Slot) (f : Context → Context) : (s.alterContext c f).pending = s.pending := rfl

@[simp] theorem State.modTime_conf (s : State) (f : Timebase → Timebase) : (s.modTime f).conf = s.conf := rfl
@[simp] theorem State.modTime_groupRec (s : State) (f : Timebase → Timebase) (g' : Group) : (s.modTime f).groupRec g' = s.groupRec g' := rfl
@[simp] theorem State.modTime_agent (s : State) (f : Timebase → Timebase) (q' : Position) : (s.modTime f).agent q' = s.agent q' := rfl
@[simp] theorem State.modTime_slotRec (s : State) (f : Timebase → Timebase) (d' : Slot) : (s.modTime f).slotRec d' = s.slotRec d' := rfl
@[simp] theorem State.modTime_callAt (s : State) (f : Timebase → Timebase) (d' : Slot) : (s.modTime f).callAt d' = s.callAt d' := rfl
@[simp] theorem State.modTime_contextAt (s : State) (f : Timebase → Timebase) (d' : Slot) : (s.modTime f).contextAt d' = s.contextAt d' := rfl
@[simp] theorem State.modTime_queue (s : State) (f : Timebase → Timebase) (h' : Group) : (s.modTime f).queue h' = s.queue h' := rfl
@[simp] theorem State.modTime_queuedSlots (s : State) (f : Timebase → Timebase) : (s.modTime f).queuedSlots = s.queuedSlots := rfl
@[simp] theorem State.modTime_outOfService (s : State) (f : Timebase → Timebase) : (s.modTime f).outOfService = s.outOfService := rfl
@[simp] theorem State.modTime_free (s : State) (f : Timebase → Timebase) : (s.modTime f).free = s.free := rfl
@[simp] theorem State.modTime_refOf (s : State) (f : Timebase → Timebase) (d' : Slot) : (s.modTime f).refOf d' = s.refOf d' := rfl
@[simp] theorem State.modTime_named (s : State) (f : Timebase → Timebase) (r' : CallRef) : (s.modTime f).named r' = s.named r' := rfl
@[simp] theorem State.modTime_selectable (s : State) (f : Timebase → Timebase) (d' : Slot) : (s.modTime f).selectable d' = s.selectable d' := rfl
@[simp] theorem State.modTime_defines (s : State) (f : Timebase → Timebase) (h' : Group) : (s.modTime f).defines h' = s.defines h' := rfl
@[simp] theorem State.modTime_eligibleGroups (s : State) (f : Timebase → Timebase) (k' : Call) : (s.modTime f).eligibleGroups k' = s.eligibleGroups k' := rfl

@[simp] theorem State.modTreat_now (s : State) (f : Treatment → Treatment) : (s.modTreat f).now = s.now := rfl
@[simp] theorem State.modTreat_conf (s : State) (f : Treatment → Treatment) : (s.modTreat f).conf = s.conf := rfl
@[simp] theorem State.modTreat_groupRec (s : State) (f : Treatment → Treatment) (g' : Group) : (s.modTreat f).groupRec g' = s.groupRec g' := rfl
@[simp] theorem State.modTreat_agent (s : State) (f : Treatment → Treatment) (q' : Position) : (s.modTreat f).agent q' = s.agent q' := rfl
@[simp] theorem State.modTreat_slotRec (s : State) (f : Treatment → Treatment) (d' : Slot) : (s.modTreat f).slotRec d' = s.slotRec d' := rfl
@[simp] theorem State.modTreat_callAt (s : State) (f : Treatment → Treatment) (d' : Slot) : (s.modTreat f).callAt d' = s.callAt d' := rfl
@[simp] theorem State.modTreat_contextAt (s : State) (f : Treatment → Treatment) (d' : Slot) : (s.modTreat f).contextAt d' = s.contextAt d' := rfl
@[simp] theorem State.modTreat_queue (s : State) (f : Treatment → Treatment) (h' : Group) : (s.modTreat f).queue h' = s.queue h' := rfl
@[simp] theorem State.modTreat_queuedSlots (s : State) (f : Treatment → Treatment) : (s.modTreat f).queuedSlots = s.queuedSlots := rfl
@[simp] theorem State.modTreat_outOfService (s : State) (f : Treatment → Treatment) : (s.modTreat f).outOfService = s.outOfService := rfl
@[simp] theorem State.modTreat_free (s : State) (f : Treatment → Treatment) : (s.modTreat f).free = s.free := rfl
@[simp] theorem State.modTreat_refOf (s : State) (f : Treatment → Treatment) (d' : Slot) : (s.modTreat f).refOf d' = s.refOf d' := rfl
@[simp] theorem State.modTreat_named (s : State) (f : Treatment → Treatment) (r' : CallRef) : (s.modTreat f).named r' = s.named r' := rfl
@[simp] theorem State.modTreat_selectable (s : State) (f : Treatment → Treatment) (d' : Slot) : (s.modTreat f).selectable d' = s.selectable d' := rfl
@[simp] theorem State.modTreat_defines (s : State) (f : Treatment → Treatment) (h' : Group) : (s.modTreat f).defines h' = s.defines h' := rfl
@[simp] theorem State.modTreat_eligibleGroups (s : State) (f : Treatment → Treatment) (k' : Call) : (s.modTreat f).eligibleGroups k' = s.eligibleGroups k' := rfl

@[simp] theorem State.modClips_now (s : State) (f : ClipFetch → ClipFetch) : (s.modClips f).now = s.now := rfl
@[simp] theorem State.modClips_conf (s : State) (f : ClipFetch → ClipFetch) : (s.modClips f).conf = s.conf := rfl
@[simp] theorem State.modClips_groupRec (s : State) (f : ClipFetch → ClipFetch) (g' : Group) : (s.modClips f).groupRec g' = s.groupRec g' := rfl
@[simp] theorem State.modClips_agent (s : State) (f : ClipFetch → ClipFetch) (q' : Position) : (s.modClips f).agent q' = s.agent q' := rfl
@[simp] theorem State.modClips_slotRec (s : State) (f : ClipFetch → ClipFetch) (d' : Slot) : (s.modClips f).slotRec d' = s.slotRec d' := rfl
@[simp] theorem State.modClips_callAt (s : State) (f : ClipFetch → ClipFetch) (d' : Slot) : (s.modClips f).callAt d' = s.callAt d' := rfl
@[simp] theorem State.modClips_contextAt (s : State) (f : ClipFetch → ClipFetch) (d' : Slot) : (s.modClips f).contextAt d' = s.contextAt d' := rfl
@[simp] theorem State.modClips_queue (s : State) (f : ClipFetch → ClipFetch) (h' : Group) : (s.modClips f).queue h' = s.queue h' := rfl
@[simp] theorem State.modClips_queuedSlots (s : State) (f : ClipFetch → ClipFetch) : (s.modClips f).queuedSlots = s.queuedSlots := rfl
@[simp] theorem State.modClips_outOfService (s : State) (f : ClipFetch → ClipFetch) : (s.modClips f).outOfService = s.outOfService := rfl
@[simp] theorem State.modClips_free (s : State) (f : ClipFetch → ClipFetch) : (s.modClips f).free = s.free := rfl
@[simp] theorem State.modClips_refOf (s : State) (f : ClipFetch → ClipFetch) (d' : Slot) : (s.modClips f).refOf d' = s.refOf d' := rfl
@[simp] theorem State.modClips_named (s : State) (f : ClipFetch → ClipFetch) (r' : CallRef) : (s.modClips f).named r' = s.named r' := rfl
@[simp] theorem State.modClips_selectable (s : State) (f : ClipFetch → ClipFetch) (d' : Slot) : (s.modClips f).selectable d' = s.selectable d' := rfl
@[simp] theorem State.modClips_defines (s : State) (f : ClipFetch → ClipFetch) (h' : Group) : (s.modClips f).defines h' = s.defines h' := rfl
@[simp] theorem State.modClips_eligibleGroups (s : State) (f : ClipFetch → ClipFetch) (k' : Call) : (s.modClips f).eligibleGroups k' = s.eligibleGroups k' := rfl

@[simp] theorem State.modExch_now (s : State) (f : Exchange → Exchange) : (s.modExch f).now = s.now := rfl
@[simp] theorem State.modExch_conf (s : State) (f : Exchange → Exchange) : (s.modExch f).conf = s.conf := rfl
@[simp] theorem State.modExch_groupRec (s : State) (f : Exchange → Exchange) (g' : Group) : (s.modExch f).groupRec g' = s.groupRec g' := rfl
@[simp] theorem State.modExch_agent (s : State) (f : Exchange → Exchange) (q' : Position) : (s.modExch f).agent q' = s.agent q' := rfl
@[simp] theorem State.modExch_slotRec (s : State) (f : Exchange → Exchange) (d' : Slot) : (s.modExch f).slotRec d' = s.slotRec d' := rfl
@[simp] theorem State.modExch_callAt (s : State) (f : Exchange → Exchange) (d' : Slot) : (s.modExch f).callAt d' = s.callAt d' := rfl
@[simp] theorem State.modExch_contextAt (s : State) (f : Exchange → Exchange) (d' : Slot) : (s.modExch f).contextAt d' = s.contextAt d' := rfl
@[simp] theorem State.modExch_queue (s : State) (f : Exchange → Exchange) (h' : Group) : (s.modExch f).queue h' = s.queue h' := rfl
@[simp] theorem State.modExch_queuedSlots (s : State) (f : Exchange → Exchange) : (s.modExch f).queuedSlots = s.queuedSlots := rfl
@[simp] theorem State.modExch_outOfService (s : State) (f : Exchange → Exchange) : (s.modExch f).outOfService = s.outOfService := rfl
@[simp] theorem State.modExch_free (s : State) (f : Exchange → Exchange) : (s.modExch f).free = s.free := rfl
@[simp] theorem State.modExch_refOf (s : State) (f : Exchange → Exchange) (d' : Slot) : (s.modExch f).refOf d' = s.refOf d' := rfl
@[simp] theorem State.modExch_named (s : State) (f : Exchange → Exchange) (r' : CallRef) : (s.modExch f).named r' = s.named r' := rfl
@[simp] theorem State.modExch_selectable (s : State) (f : Exchange → Exchange) (d' : Slot) : (s.modExch f).selectable d' = s.selectable d' := rfl
@[simp] theorem State.modExch_defines (s : State) (f : Exchange → Exchange) (h' : Group) : (s.modExch f).defines h' = s.defines h' := rfl
@[simp] theorem State.modExch_eligibleGroups (s : State) (f : Exchange → Exchange) (k' : Call) : (s.modExch f).eligibleGroups k' = s.eligibleGroups k' := rfl

@[simp] theorem State.modPeers_now (s : State) (f : PeerView → PeerView) : (s.modPeers f).now = s.now := rfl
@[simp] theorem State.modPeers_conf (s : State) (f : PeerView → PeerView) : (s.modPeers f).conf = s.conf := rfl
@[simp] theorem State.modPeers_groupRec (s : State) (f : PeerView → PeerView) (g' : Group) : (s.modPeers f).groupRec g' = s.groupRec g' := rfl
@[simp] theorem State.modPeers_agent (s : State) (f : PeerView → PeerView) (q' : Position) : (s.modPeers f).agent q' = s.agent q' := rfl
@[simp] theorem State.modPeers_slotRec (s : State) (f : PeerView → PeerView) (d' : Slot) : (s.modPeers f).slotRec d' = s.slotRec d' := rfl
@[simp] theorem State.modPeers_callAt (s : State) (f : PeerView → PeerView) (d' : Slot) : (s.modPeers f).callAt d' = s.callAt d' := rfl
@[simp] theorem State.modPeers_contextAt (s : State) (f : PeerView → PeerView) (d' : Slot) : (s.modPeers f).contextAt d' = s.contextAt d' := rfl
@[simp] theorem State.modPeers_queue (s : State) (f : PeerView → PeerView) (h' : Group) : (s.modPeers f).queue h' = s.queue h' := rfl
@[simp] theorem State.modPeers_queuedSlots (s : State) (f : PeerView → PeerView) : (s.modPeers f).queuedSlots = s.queuedSlots := rfl
@[simp] theorem State.modPeers_outOfService (s : State) (f : PeerView → PeerView) : (s.modPeers f).outOfService = s.outOfService := rfl
@[simp] theorem State.modPeers_free (s : State) (f : PeerView → PeerView) : (s.modPeers f).free = s.free := rfl
@[simp] theorem State.modPeers_refOf (s : State) (f : PeerView → PeerView) (d' : Slot) : (s.modPeers f).refOf d' = s.refOf d' := rfl
@[simp] theorem State.modPeers_named (s : State) (f : PeerView → PeerView) (r' : CallRef) : (s.modPeers f).named r' = s.named r' := rfl
@[simp] theorem State.modPeers_selectable (s : State) (f : PeerView → PeerView) (d' : Slot) : (s.modPeers f).selectable d' = s.selectable d' := rfl
@[simp] theorem State.modPeers_defines (s : State) (f : PeerView → PeerView) (h' : Group) : (s.modPeers f).defines h' = s.defines h' := rfl
@[simp] theorem State.modPeers_eligibleGroups (s : State) (f : PeerView → PeerView) (k' : Call) : (s.modPeers f).eligibleGroups k' = s.eligibleGroups k' := rfl

@[simp] theorem State.modBuilder_now (s : State) (f : Builder → Builder) : (s.modBuilder f).now = s.now := rfl
@[simp] theorem State.modBuilder_conf (s : State) (f : Builder → Builder) : (s.modBuilder f).conf = s.conf := rfl
@[simp] theorem State.modBuilder_groupRec (s : State) (f : Builder → Builder) (g' : Group) : (s.modBuilder f).groupRec g' = s.groupRec g' := rfl
@[simp] theorem State.modBuilder_agent (s : State) (f : Builder → Builder) (q' : Position) : (s.modBuilder f).agent q' = s.agent q' := rfl
@[simp] theorem State.modBuilder_slotRec (s : State) (f : Builder → Builder) (d' : Slot) : (s.modBuilder f).slotRec d' = s.slotRec d' := rfl
@[simp] theorem State.modBuilder_callAt (s : State) (f : Builder → Builder) (d' : Slot) : (s.modBuilder f).callAt d' = s.callAt d' := rfl
@[simp] theorem State.modBuilder_contextAt (s : State) (f : Builder → Builder) (d' : Slot) : (s.modBuilder f).contextAt d' = s.contextAt d' := rfl
@[simp] theorem State.modBuilder_queue (s : State) (f : Builder → Builder) (h' : Group) : (s.modBuilder f).queue h' = s.queue h' := rfl
@[simp] theorem State.modBuilder_queuedSlots (s : State) (f : Builder → Builder) : (s.modBuilder f).queuedSlots = s.queuedSlots := rfl
@[simp] theorem State.modBuilder_outOfService (s : State) (f : Builder → Builder) : (s.modBuilder f).outOfService = s.outOfService := rfl
@[simp] theorem State.modBuilder_free (s : State) (f : Builder → Builder) : (s.modBuilder f).free = s.free := rfl
@[simp] theorem State.modBuilder_refOf (s : State) (f : Builder → Builder) (d' : Slot) : (s.modBuilder f).refOf d' = s.refOf d' := rfl
@[simp] theorem State.modBuilder_named (s : State) (f : Builder → Builder) (r' : CallRef) : (s.modBuilder f).named r' = s.named r' := rfl
@[simp] theorem State.modBuilder_selectable (s : State) (f : Builder → Builder) (d' : Slot) : (s.modBuilder f).selectable d' = s.selectable d' := rfl
@[simp] theorem State.modBuilder_defines (s : State) (f : Builder → Builder) (h' : Group) : (s.modBuilder f).defines h' = s.defines h' := rfl
@[simp] theorem State.modBuilder_eligibleGroups (s : State) (f : Builder → Builder) (k' : Call) : (s.modBuilder f).eligibleGroups k' = s.eligibleGroups k' := rfl

@[simp] theorem State.modBus_now (s : State) (f : Bus → Bus) : (s.modBus f).now = s.now := rfl
@[simp] theorem State.modBus_conf (s : State) (f : Bus → Bus) : (s.modBus f).conf = s.conf := rfl
@[simp] theorem State.modBus_groupRec (s : State) (f : Bus → Bus) (g' : Group) : (s.modBus f).groupRec g' = s.groupRec g' := rfl
@[simp] theorem State.modBus_agent (s : State) (f : Bus → Bus) (q' : Position) : (s.modBus f).agent q' = s.agent q' := rfl
@[simp] theorem State.modBus_slotRec (s : State) (f : Bus → Bus) (d' : Slot) : (s.modBus f).slotRec d' = s.slotRec d' := rfl
@[simp] theorem State.modBus_callAt (s : State) (f : Bus → Bus) (d' : Slot) : (s.modBus f).callAt d' = s.callAt d' := rfl
@[simp] theorem State.modBus_contextAt (s : State) (f : Bus → Bus) (d' : Slot) : (s.modBus f).contextAt d' = s.contextAt d' := rfl
@[simp] theorem State.modBus_queue (s : State) (f : Bus → Bus) (h' : Group) : (s.modBus f).queue h' = s.queue h' := rfl
@[simp] theorem State.modBus_queuedSlots (s : State) (f : Bus → Bus) : (s.modBus f).queuedSlots = s.queuedSlots := rfl
@[simp] theorem State.modBus_free (s : State) (f : Bus → Bus) : (s.modBus f).free = s.free := rfl
@[simp] theorem State.modBus_named (s : State) (f : Bus → Bus) (r' : CallRef) : (s.modBus f).named r' = s.named r' := rfl
@[simp] theorem State.modBus_selectable (s : State) (f : Bus → Bus) (d' : Slot) : (s.modBus f).selectable d' = s.selectable d' := rfl
@[simp] theorem State.modBus_defines (s : State) (f : Bus → Bus) (h' : Group) : (s.modBus f).defines h' = s.defines h' := rfl
@[simp] theorem State.modBus_eligibleGroups (s : State) (f : Bus → Bus) (k' : Call) : (s.modBus f).eligibleGroups k' = s.eligibleGroups k' := rfl

@[simp] theorem State.modPort_now (s : State) (f : Port → Port) : (s.modPort f).now = s.now := rfl
@[simp] theorem State.modPort_conf (s : State) (f : Port → Port) : (s.modPort f).conf = s.conf := rfl
@[simp] theorem State.modPort_groupRec (s : State) (f : Port → Port) (g' : Group) : (s.modPort f).groupRec g' = s.groupRec g' := rfl
@[simp] theorem State.modPort_agent (s : State) (f : Port → Port) (q' : Position) : (s.modPort f).agent q' = s.agent q' := rfl
@[simp] theorem State.modPort_slotRec (s : State) (f : Port → Port) (d' : Slot) : (s.modPort f).slotRec d' = s.slotRec d' := rfl
@[simp] theorem State.modPort_callAt (s : State) (f : Port → Port) (d' : Slot) : (s.modPort f).callAt d' = s.callAt d' := rfl
@[simp] theorem State.modPort_contextAt (s : State) (f : Port → Port) (d' : Slot) : (s.modPort f).contextAt d' = s.contextAt d' := rfl
@[simp] theorem State.modPort_queue (s : State) (f : Port → Port) (h' : Group) : (s.modPort f).queue h' = s.queue h' := rfl
@[simp] theorem State.modPort_queuedSlots (s : State) (f : Port → Port) : (s.modPort f).queuedSlots = s.queuedSlots := rfl
@[simp] theorem State.modPort_outOfService (s : State) (f : Port → Port) : (s.modPort f).outOfService = s.outOfService := rfl
@[simp] theorem State.modPort_refOf (s : State) (f : Port → Port) (d' : Slot) : (s.modPort f).refOf d' = s.refOf d' := rfl
@[simp] theorem State.modPort_named (s : State) (f : Port → Port) (r' : CallRef) : (s.modPort f).named r' = s.named r' := rfl
@[simp] theorem State.modPort_selectable (s : State) (f : Port → Port) (d' : Slot) : (s.modPort f).selectable d' = s.selectable d' := rfl
@[simp] theorem State.modPort_defines (s : State) (f : Port → Port) (h' : Group) : (s.modPort f).defines h' = s.defines h' := rfl
@[simp] theorem State.modPort_eligibleGroups (s : State) (f : Port → Port) (k' : Call) : (s.modPort f).eligibleGroups k' = s.eligibleGroups k' := rfl

@[simp] theorem State.modLoad_now (s : State) (f : LoadUnit → LoadUnit) : (s.modLoad f).now = s.now := rfl
@[simp] theorem State.modLoad_conf (s : State) (f : LoadUnit → LoadUnit) : (s.modLoad f).conf = s.conf := rfl
@[simp] theorem State.modLoad_groupRec (s : State) (f : LoadUnit → LoadUnit) (g' : Group) : (s.modLoad f).groupRec g' = s.groupRec g' := rfl
@[simp] theorem State.modLoad_agent (s : State) (f : LoadUnit → LoadUnit) (q' : Position) : (s.modLoad f).agent q' = s.agent q' := rfl
@[simp] theorem State.modLoad_slotRec (s : State) (f : LoadUnit → LoadUnit) (d' : Slot) : (s.modLoad f).slotRec d' = s.slotRec d' := rfl
@[simp] theorem State.modLoad_callAt (s : State) (f : LoadUnit → LoadUnit) (d' : Slot) : (s.modLoad f).callAt d' = s.callAt d' := rfl
@[simp] theorem State.modLoad_contextAt (s : State) (f : LoadUnit → LoadUnit) (d' : Slot) : (s.modLoad f).contextAt d' = s.contextAt d' := rfl
@[simp] theorem State.modLoad_queue (s : State) (f : LoadUnit → LoadUnit) (h' : Group) : (s.modLoad f).queue h' = s.queue h' := rfl
@[simp] theorem State.modLoad_queuedSlots (s : State) (f : LoadUnit → LoadUnit) : (s.modLoad f).queuedSlots = s.queuedSlots := rfl
@[simp] theorem State.modLoad_outOfService (s : State) (f : LoadUnit → LoadUnit) : (s.modLoad f).outOfService = s.outOfService := rfl
@[simp] theorem State.modLoad_free (s : State) (f : LoadUnit → LoadUnit) : (s.modLoad f).free = s.free := rfl
@[simp] theorem State.modLoad_refOf (s : State) (f : LoadUnit → LoadUnit) (d' : Slot) : (s.modLoad f).refOf d' = s.refOf d' := rfl
@[simp] theorem State.modLoad_named (s : State) (f : LoadUnit → LoadUnit) (r' : CallRef) : (s.modLoad f).named r' = s.named r' := rfl
@[simp] theorem State.modLoad_selectable (s : State) (f : LoadUnit → LoadUnit) (d' : Slot) : (s.modLoad f).selectable d' = s.selectable d' := rfl
@[simp] theorem State.modLoad_defines (s : State) (f : LoadUnit → LoadUnit) (h' : Group) : (s.modLoad f).defines h' = s.defines h' := rfl
@[simp] theorem State.modLoad_eligibleGroups (s : State) (f : LoadUnit → LoadUnit) (k' : Call) : (s.modLoad f).eligibleGroups k' = s.eligibleGroups k' := rfl

@[simp] theorem State.setHighway_now (s : State) (v : Vector (Option Byte) 32) : (s.setHighway v).now = s.now := rfl
@[simp] theorem State.setHighway_conf (s : State) (v : Vector (Option Byte) 32) : (s.setHighway v).conf = s.conf := rfl
@[simp] theorem State.setHighway_groupRec (s : State) (v : Vector (Option Byte) 32) (g' : Group) : (s.setHighway v).groupRec g' = s.groupRec g' := rfl
@[simp] theorem State.setHighway_agent (s : State) (v : Vector (Option Byte) 32) (q' : Position) : (s.setHighway v).agent q' = s.agent q' := rfl
@[simp] theorem State.setHighway_slotRec (s : State) (v : Vector (Option Byte) 32) (d' : Slot) : (s.setHighway v).slotRec d' = s.slotRec d' := rfl
@[simp] theorem State.setHighway_callAt (s : State) (v : Vector (Option Byte) 32) (d' : Slot) : (s.setHighway v).callAt d' = s.callAt d' := rfl
@[simp] theorem State.setHighway_contextAt (s : State) (v : Vector (Option Byte) 32) (d' : Slot) : (s.setHighway v).contextAt d' = s.contextAt d' := rfl
@[simp] theorem State.setHighway_queue (s : State) (v : Vector (Option Byte) 32) (h' : Group) : (s.setHighway v).queue h' = s.queue h' := rfl
@[simp] theorem State.setHighway_queuedSlots (s : State) (v : Vector (Option Byte) 32) : (s.setHighway v).queuedSlots = s.queuedSlots := rfl
@[simp] theorem State.setHighway_outOfService (s : State) (v : Vector (Option Byte) 32) : (s.setHighway v).outOfService = s.outOfService := rfl
@[simp] theorem State.setHighway_free (s : State) (v : Vector (Option Byte) 32) : (s.setHighway v).free = s.free := rfl
@[simp] theorem State.setHighway_refOf (s : State) (v : Vector (Option Byte) 32) (d' : Slot) : (s.setHighway v).refOf d' = s.refOf d' := rfl
@[simp] theorem State.setHighway_named (s : State) (v : Vector (Option Byte) 32) (r' : CallRef) : (s.setHighway v).named r' = s.named r' := rfl
@[simp] theorem State.setHighway_selectable (s : State) (v : Vector (Option Byte) 32) (d' : Slot) : (s.setHighway v).selectable d' = s.selectable d' := rfl
@[simp] theorem State.setHighway_defines (s : State) (v : Vector (Option Byte) 32) (h' : Group) : (s.setHighway v).defines h' = s.defines h' := rfl
@[simp] theorem State.setHighway_eligibleGroups (s : State) (v : Vector (Option Byte) 32) (k' : Call) : (s.setHighway v).eligibleGroups k' = s.eligibleGroups k' := rfl

@[simp] theorem State.setAht_now (s : State) (g : Group) (n : Nat) : (s.setAht g n).now = s.now := rfl
@[simp] theorem State.setAht_conf (s : State) (g : Group) (n : Nat) : (s.setAht g n).conf = s.conf := rfl
@[simp] theorem State.setAht_groupRec (s : State) (g : Group) (n : Nat) (g' : Group) : (s.setAht g n).groupRec g' = s.groupRec g' := rfl
@[simp] theorem State.setAht_agent (s : State) (g : Group) (n : Nat) (q' : Position) : (s.setAht g n).agent q' = s.agent q' := rfl
@[simp] theorem State.setAht_slotRec (s : State) (g : Group) (n : Nat) (d' : Slot) : (s.setAht g n).slotRec d' = s.slotRec d' := rfl
@[simp] theorem State.setAht_callAt (s : State) (g : Group) (n : Nat) (d' : Slot) : (s.setAht g n).callAt d' = s.callAt d' := rfl
@[simp] theorem State.setAht_contextAt (s : State) (g : Group) (n : Nat) (d' : Slot) : (s.setAht g n).contextAt d' = s.contextAt d' := rfl
@[simp] theorem State.setAht_queue (s : State) (g : Group) (n : Nat) (h' : Group) : (s.setAht g n).queue h' = s.queue h' := rfl
@[simp] theorem State.setAht_queuedSlots (s : State) (g : Group) (n : Nat) : (s.setAht g n).queuedSlots = s.queuedSlots := rfl
@[simp] theorem State.setAht_outOfService (s : State) (g : Group) (n : Nat) : (s.setAht g n).outOfService = s.outOfService := rfl
@[simp] theorem State.setAht_free (s : State) (g : Group) (n : Nat) : (s.setAht g n).free = s.free := rfl
@[simp] theorem State.setAht_refOf (s : State) (g : Group) (n : Nat) (d' : Slot) : (s.setAht g n).refOf d' = s.refOf d' := rfl
@[simp] theorem State.setAht_named (s : State) (g : Group) (n : Nat) (r' : CallRef) : (s.setAht g n).named r' = s.named r' := rfl
@[simp] theorem State.setAht_selectable (s : State) (g : Group) (n : Nat) (d' : Slot) : (s.setAht g n).selectable d' = s.selectable d' := rfl
@[simp] theorem State.setAht_defines (s : State) (g : Group) (n : Nat) (h' : Group) : (s.setAht g n).defines h' = s.defines h' := rfl
@[simp] theorem State.setAht_eligibleGroups (s : State) (g : Group) (n : Nat) (k' : Call) : (s.setAht g n).eligibleGroups k' = s.eligibleGroups k' := rfl

@[simp] theorem State.setDeferrals_now (s : State) (n : Nat) : (s.setDeferrals n).now = s.now := rfl
@[simp] theorem State.setDeferrals_conf (s : State) (n : Nat) : (s.setDeferrals n).conf = s.conf := rfl
@[simp] theorem State.setDeferrals_groupRec (s : State) (n : Nat) (g' : Group) : (s.setDeferrals n).groupRec g' = s.groupRec g' := rfl
@[simp] theorem State.setDeferrals_agent (s : State) (n : Nat) (q' : Position) : (s.setDeferrals n).agent q' = s.agent q' := rfl
@[simp] theorem State.setDeferrals_slotRec (s : State) (n : Nat) (d' : Slot) : (s.setDeferrals n).slotRec d' = s.slotRec d' := rfl
@[simp] theorem State.setDeferrals_callAt (s : State) (n : Nat) (d' : Slot) : (s.setDeferrals n).callAt d' = s.callAt d' := rfl
@[simp] theorem State.setDeferrals_contextAt (s : State) (n : Nat) (d' : Slot) : (s.setDeferrals n).contextAt d' = s.contextAt d' := rfl
@[simp] theorem State.setDeferrals_queue (s : State) (n : Nat) (h' : Group) : (s.setDeferrals n).queue h' = s.queue h' := rfl
@[simp] theorem State.setDeferrals_queuedSlots (s : State) (n : Nat) : (s.setDeferrals n).queuedSlots = s.queuedSlots := rfl
@[simp] theorem State.setDeferrals_outOfService (s : State) (n : Nat) : (s.setDeferrals n).outOfService = s.outOfService := rfl
@[simp] theorem State.setDeferrals_free (s : State) (n : Nat) : (s.setDeferrals n).free = s.free := rfl
@[simp] theorem State.setDeferrals_refOf (s : State) (n : Nat) (d' : Slot) : (s.setDeferrals n).refOf d' = s.refOf d' := rfl
@[simp] theorem State.setDeferrals_named (s : State) (n : Nat) (r' : CallRef) : (s.setDeferrals n).named r' = s.named r' := rfl
@[simp] theorem State.setDeferrals_selectable (s : State) (n : Nat) (d' : Slot) : (s.setDeferrals n).selectable d' = s.selectable d' := rfl
@[simp] theorem State.setDeferrals_defines (s : State) (n : Nat) (h' : Group) : (s.setDeferrals n).defines h' = s.defines h' := rfl
@[simp] theorem State.setDeferrals_eligibleGroups (s : State) (n : Nat) (k' : Call) : (s.setDeferrals n).eligibleGroups k' = s.eligibleGroups k' := rfl

@[simp] theorem State.alterAgent_now (s : State) (p : Position) (f : Agent → Agent) : (s.alterAgent p f).now = s.now := rfl
@[simp] theorem State.alterAgent_conf (s : State) (p : Position) (f : Agent → Agent) : (s.alterAgent p f).conf = s.conf := rfl
@[simp] theorem State.alterAgent_groupRec (s : State) (p : Position) (f : Agent → Agent) (g' : Group) : (s.alterAgent p f).groupRec g' = s.groupRec g' := rfl
@[simp] theorem State.alterAgent_slotRec (s : State) (p : Position) (f : Agent → Agent) (d' : Slot) : (s.alterAgent p f).slotRec d' = s.slotRec d' := rfl
@[simp] theorem State.alterAgent_callAt (s : State) (p : Position) (f : Agent → Agent) (d' : Slot) : (s.alterAgent p f).callAt d' = s.callAt d' := rfl
@[simp] theorem State.alterAgent_contextAt (s : State) (p : Position) (f : Agent → Agent) (d' : Slot) : (s.alterAgent p f).contextAt d' = s.contextAt d' := rfl
@[simp] theorem State.alterAgent_queue (s : State) (p : Position) (f : Agent → Agent) (h' : Group) : (s.alterAgent p f).queue h' = s.queue h' := rfl
@[simp] theorem State.alterAgent_queuedSlots (s : State) (p : Position) (f : Agent → Agent) : (s.alterAgent p f).queuedSlots = s.queuedSlots := rfl
@[simp] theorem State.alterAgent_outOfService (s : State) (p : Position) (f : Agent → Agent) : (s.alterAgent p f).outOfService = s.outOfService := rfl
@[simp] theorem State.alterAgent_free (s : State) (p : Position) (f : Agent → Agent) : (s.alterAgent p f).free = s.free := rfl
@[simp] theorem State.alterAgent_refOf (s : State) (p : Position) (f : Agent → Agent) (d' : Slot) : (s.alterAgent p f).refOf d' = s.refOf d' := rfl
@[simp] theorem State.alterAgent_named (s : State) (p : Position) (f : Agent → Agent) (r' : CallRef) : (s.alterAgent p f).named r' = s.named r' := rfl
@[simp] theorem State.alterAgent_selectable (s : State) (p : Position) (f : Agent → Agent) (d' : Slot) : (s.alterAgent p f).selectable d' = s.selectable d' := rfl
@[simp] theorem State.alterAgent_defines (s : State) (p : Position) (f : Agent → Agent) (h' : Group) : (s.alterAgent p f).defines h' = s.defines h' := rfl
@[simp] theorem State.alterAgent_eligibleGroups (s : State) (p : Position) (f : Agent → Agent) (k' : Call) : (s.alterAgent p f).eligibleGroups k' = s.eligibleGroups k' := rfl

@[simp] theorem State.alterSlot_now (s : State) (c : Slot) (f : CallSlot → CallSlot) : (s.alterSlot c f).now = s.now := rfl
@[simp] theorem State.alterSlot_conf (s : State) (c : Slot) (f : CallSlot → CallSlot) : (s.alterSlot c f).conf = s.conf := rfl
@[simp] theorem State.alterSlot_groupRec (s : State) (c : Slot) (f : CallSlot → CallSlot) (g' : Group) : (s.alterSlot c f).groupRec g' = s.groupRec g' := rfl
@[simp] theorem State.alterSlot_agent (s : State) (c : Slot) (f : CallSlot → CallSlot) (q' : Position) : (s.alterSlot c f).agent q' = s.agent q' := rfl
@[simp] theorem State.alterSlot_queue (s : State) (c : Slot) (f : CallSlot → CallSlot) (h' : Group) : (s.alterSlot c f).queue h' = s.queue h' := rfl
@[simp] theorem State.alterSlot_queuedSlots (s : State) (c : Slot) (f : CallSlot → CallSlot) : (s.alterSlot c f).queuedSlots = s.queuedSlots := rfl
@[simp] theorem State.alterSlot_outOfService (s : State) (c : Slot) (f : CallSlot → CallSlot) : (s.alterSlot c f).outOfService = s.outOfService := rfl
@[simp] theorem State.alterSlot_free (s : State) (c : Slot) (f : CallSlot → CallSlot) : (s.alterSlot c f).free = s.free := rfl
@[simp] theorem State.alterSlot_defines (s : State) (c : Slot) (f : CallSlot → CallSlot) (h' : Group) : (s.alterSlot c f).defines h' = s.defines h' := rfl
@[simp] theorem State.alterSlot_eligibleGroups (s : State) (c : Slot) (f : CallSlot → CallSlot) (k' : Call) : (s.alterSlot c f).eligibleGroups k' = s.eligibleGroups k' := rfl

@[simp] theorem State.alterQueue_now (s : State) (g : Group) (f : List Slot → List Slot) : (s.alterQueue g f).now = s.now := rfl
@[simp] theorem State.alterQueue_conf (s : State) (g : Group) (f : List Slot → List Slot) : (s.alterQueue g f).conf = s.conf := rfl
@[simp] theorem State.alterQueue_groupRec (s : State) (g : Group) (f : List Slot → List Slot) (g' : Group) : (s.alterQueue g f).groupRec g' = s.groupRec g' := rfl
@[simp] theorem State.alterQueue_agent (s : State) (g : Group) (f : List Slot → List Slot) (q' : Position) : (s.alterQueue g f).agent q' = s.agent q' := rfl
@[simp] theorem State.alterQueue_slotRec (s : State) (g : Group) (f : List Slot → List Slot) (d' : Slot) : (s.alterQueue g f).slotRec d' = s.slotRec d' := rfl
@[simp] theorem State.alterQueue_callAt (s : State) (g : Group) (f : List Slot → List Slot) (d' : Slot) : (s.alterQueue g f).callAt d' = s.callAt d' := rfl
@[simp] theorem State.alterQueue_contextAt (s : State) (g : Group) (f : List Slot → List Slot) (d' : Slot) : (s.alterQueue g f).contextAt d' = s.contextAt d' := rfl
@[simp] theorem State.alterQueue_outOfService (s : State) (g : Group) (f : List Slot → List Slot) : (s.alterQueue g f).outOfService = s.outOfService := rfl
@[simp] theorem State.alterQueue_free (s : State) (g : Group) (f : List Slot → List Slot) : (s.alterQueue g f).free = s.free := rfl
@[simp] theorem State.alterQueue_refOf (s : State) (g : Group) (f : List Slot → List Slot) (d' : Slot) : (s.alterQueue g f).refOf d' = s.refOf d' := rfl
@[simp] theorem State.alterQueue_named (s : State) (g : Group) (f : List Slot → List Slot) (r' : CallRef) : (s.alterQueue g f).named r' = s.named r' := rfl
@[simp] theorem State.alterQueue_selectable (s : State) (g : Group) (f : List Slot → List Slot) (d' : Slot) : (s.alterQueue g f).selectable d' = s.selectable d' := rfl
@[simp] theorem State.alterQueue_defines (s : State) (g : Group) (f : List Slot → List Slot) (h' : Group) : (s.alterQueue g f).defines h' = s.defines h' := rfl
@[simp] theorem State.alterQueue_eligibleGroups (s : State) (g : Group) (f : List Slot → List Slot) (k' : Call) : (s.alterQueue g f).eligibleGroups k' = s.eligibleGroups k' := rfl

@[simp] theorem State.alterCounts_now (s : State) (g : Group) (f : GroupCounts → GroupCounts) : (s.alterCounts g f).now = s.now := rfl
@[simp] theorem State.alterCounts_conf (s : State) (g : Group) (f : GroupCounts → GroupCounts) : (s.alterCounts g f).conf = s.conf := rfl
@[simp] theorem State.alterCounts_groupRec (s : State) (g : Group) (f : GroupCounts → GroupCounts) (g' : Group) : (s.alterCounts g f).groupRec g' = s.groupRec g' := rfl
@[simp] theorem State.alterCounts_agent (s : State) (g : Group) (f : GroupCounts → GroupCounts) (q' : Position) : (s.alterCounts g f).agent q' = s.agent q' := rfl
@[simp] theorem State.alterCounts_slotRec (s : State) (g : Group) (f : GroupCounts → GroupCounts) (d' : Slot) : (s.alterCounts g f).slotRec d' = s.slotRec d' := rfl
@[simp] theorem State.alterCounts_callAt (s : State) (g : Group) (f : GroupCounts → GroupCounts) (d' : Slot) : (s.alterCounts g f).callAt d' = s.callAt d' := rfl
@[simp] theorem State.alterCounts_contextAt (s : State) (g : Group) (f : GroupCounts → GroupCounts) (d' : Slot) : (s.alterCounts g f).contextAt d' = s.contextAt d' := rfl
@[simp] theorem State.alterCounts_queue (s : State) (g : Group) (f : GroupCounts → GroupCounts) (h' : Group) : (s.alterCounts g f).queue h' = s.queue h' := rfl
@[simp] theorem State.alterCounts_queuedSlots (s : State) (g : Group) (f : GroupCounts → GroupCounts) : (s.alterCounts g f).queuedSlots = s.queuedSlots := rfl
@[simp] theorem State.alterCounts_outOfService (s : State) (g : Group) (f : GroupCounts → GroupCounts) : (s.alterCounts g f).outOfService = s.outOfService := rfl
@[simp] theorem State.alterCounts_free (s : State) (g : Group) (f : GroupCounts → GroupCounts) : (s.alterCounts g f).free = s.free := rfl
@[simp] theorem State.alterCounts_refOf (s : State) (g : Group) (f : GroupCounts → GroupCounts) (d' : Slot) : (s.alterCounts g f).refOf d' = s.refOf d' := rfl
@[simp] theorem State.alterCounts_named (s : State) (g : Group) (f : GroupCounts → GroupCounts) (r' : CallRef) : (s.alterCounts g f).named r' = s.named r' := rfl
@[simp] theorem State.alterCounts_selectable (s : State) (g : Group) (f : GroupCounts → GroupCounts) (d' : Slot) : (s.alterCounts g f).selectable d' = s.selectable d' := rfl
@[simp] theorem State.alterCounts_defines (s : State) (g : Group) (f : GroupCounts → GroupCounts) (h' : Group) : (s.alterCounts g f).defines h' = s.defines h' := rfl
@[simp] theorem State.alterCounts_eligibleGroups (s : State) (g : Group) (f : GroupCounts → GroupCounts) (k' : Call) : (s.alterCounts g f).eligibleGroups k' = s.eligibleGroups k' := rfl

@[simp] theorem State.alterCall_now (s : State) (c : Slot) (f : Call → Call) : (s.alterCall c f).now = s.now := rfl
@[simp] theorem State.alterCall_conf (s : State) (c : Slot) (f : Call → Call) : (s.alterCall c f).conf = s.conf := rfl
@[simp] theorem State.alterCall_groupRec (s : State) (c : Slot) (f : Call → Call) (g' : Group) : (s.alterCall c f).groupRec g' = s.groupRec g' := rfl
@[simp] theorem State.alterCall_agent (s : State) (c : Slot) (f : Call → Call) (q' : Position) : (s.alterCall c f).agent q' = s.agent q' := rfl
@[simp] theorem State.alterCall_queue (s : State) (c : Slot) (f : Call → Call) (h' : Group) : (s.alterCall c f).queue h' = s.queue h' := rfl
@[simp] theorem State.alterCall_queuedSlots (s : State) (c : Slot) (f : Call → Call) : (s.alterCall c f).queuedSlots = s.queuedSlots := rfl
@[simp] theorem State.alterCall_outOfService (s : State) (c : Slot) (f : Call → Call) : (s.alterCall c f).outOfService = s.outOfService := rfl
@[simp] theorem State.alterCall_free (s : State) (c : Slot) (f : Call → Call) : (s.alterCall c f).free = s.free := rfl
@[simp] theorem State.alterCall_defines (s : State) (c : Slot) (f : Call → Call) (h' : Group) : (s.alterCall c f).defines h' = s.defines h' := rfl
@[simp] theorem State.alterCall_eligibleGroups (s : State) (c : Slot) (f : Call → Call) (k' : Call) : (s.alterCall c f).eligibleGroups k' = s.eligibleGroups k' := rfl

@[simp] theorem State.alterContext_now (s : State) (c : Slot) (f : Context → Context) : (s.alterContext c f).now = s.now := rfl
@[simp] theorem State.alterContext_conf (s : State) (c : Slot) (f : Context → Context) : (s.alterContext c f).conf = s.conf := rfl
@[simp] theorem State.alterContext_groupRec (s : State) (c : Slot) (f : Context → Context) (g' : Group) : (s.alterContext c f).groupRec g' = s.groupRec g' := rfl
@[simp] theorem State.alterContext_agent (s : State) (c : Slot) (f : Context → Context) (q' : Position) : (s.alterContext c f).agent q' = s.agent q' := rfl
@[simp] theorem State.alterContext_queue (s : State) (c : Slot) (f : Context → Context) (h' : Group) : (s.alterContext c f).queue h' = s.queue h' := rfl
@[simp] theorem State.alterContext_queuedSlots (s : State) (c : Slot) (f : Context → Context) : (s.alterContext c f).queuedSlots = s.queuedSlots := rfl
@[simp] theorem State.alterContext_outOfService (s : State) (c : Slot) (f : Context → Context) : (s.alterContext c f).outOfService = s.outOfService := rfl
@[simp] theorem State.alterContext_free (s : State) (c : Slot) (f : Context → Context) : (s.alterContext c f).free = s.free := rfl
@[simp] theorem State.alterContext_defines (s : State) (c : Slot) (f : Context → Context) (h' : Group) : (s.alterContext c f).defines h' = s.defines h' := rfl
@[simp] theorem State.alterContext_eligibleGroups (s : State) (c : Slot) (f : Context → Context) (k' : Call) : (s.alterContext c f).eligibleGroups k' = s.eligibleGroups k' := rfl

/-! ### Reading an altered table -/

@[simp] theorem alter_getElem {α : Type} {n : Nat} (v : Vector α n) (i : Fin n) (f : α → α) (j : Nat) (h : j < n) :
    (alter v i f)[j] = if i.val = j then f v[i] else v[j] := by
  simp only [alter, Vector.getElem_set]

theorem alter_get {α : Type} {n : Nat} (v : Vector α n) (i j : Fin n) (f : α → α) :
    (alter v i f)[j] = if i = j then f v[i] else v[j] := by
  simp only [Fin.getElem_fin, alter_getElem, Fin.ext_iff]

theorem alter_get_self {α : Type} {n : Nat} (v : Vector α n) (i : Fin n) (f : α → α) :
    (alter v i f)[i] = f v[i] := by rw [alter_get, if_pos rfl]

theorem alter_get_other {α : Type} {n : Nat} (v : Vector α n) {i j : Fin n} (h : i ≠ j) (f : α → α) :
    (alter v i f)[j] = v[j] := by rw [alter_get, if_neg h]

@[simp] theorem alterAll_getElem {α : Type} {n : Nat} (v : Vector α n) (f : α → α) (i : Nat) (h : i < n) :
    (alterAll v f)[i] = f v[i] := by simp [alterAll]

theorem State.alterAgent_agent (s : State) (p q : Position) (f : Agent → Agent) :
    (s.alterAgent p f).agent q = if p = q then f (s.agent p) else s.agent q := alter_get ..

theorem State.alterSlot_slotRec (s : State) (c d : Slot) (f : CallSlot → CallSlot) :
    (s.alterSlot c f).slotRec d = if c = d then f (s.slotRec c) else s.slotRec d := alter_get ..

theorem State.alterQueue_queue (s : State) (g h : Group) (f : List Slot → List Slot) :
    (s.alterQueue g f).queue h = if g = h then f (s.queue g) else s.queue h := alter_get ..

theorem State.alterCall_callAt (s : State) (c d : Slot) (f : Call → Call) :
    (s.alterCall c f).callAt d = if c = d then (s.callAt c).map f else s.callAt d := by
  simp only [State.callAt, State.alterCall_calls, alter_get]
  split <;> rfl

end Sys2Proof.Machine
end

