-- ==== Sys2Proof/Laws/Frames.lean ====
section
/-! SUPPORT. What each shared operation leaves unchanged: one lemma for each operation, naming every block it
does not touch. As a simp lemma it rewrites each of those blocks. -/

namespace Sys2Proof.Machine

/-- A fold keeps what each of its steps keeps. -/
theorem foldl_keep {α β : Type} (g : State → β) (f : State → α → State) (h : ∀ s a, g (f s a) = g s) (l : List α) (s : State) :
    g (l.foldl f s) = g s := by
  induction l generalizing s with
  | nil => rfl
  | cons a l ih => rw [List.foldl_cons, ih, h]

/-! A fold of attempts touches what one attempt does, and a fold over the peer rows touches those alone. -/

theorem foldl_frame {α : Type} (f : State → α → State) (h : ∀ s a,
    (f s a).cfg = s.cfg ∧ (f s a).load = s.load ∧ (f s a).time = s.time ∧ (f s a).queues = s.queues ∧
    (f s a).counts = s.counts ∧ (f s a).aht = s.aht ∧ (f s a).treat = s.treat ∧ (f s a).clips = s.clips ∧
    (f s a).highway = s.highway ∧ (f s a).builder = s.builder ∧ (f s a).pending = s.pending) (l : List α) (s : State) :
    (l.foldl f s).cfg = s.cfg ∧ (l.foldl f s).load = s.load ∧ (l.foldl f s).time = s.time ∧
    (l.foldl f s).queues = s.queues ∧ (l.foldl f s).counts = s.counts ∧ (l.foldl f s).aht = s.aht ∧
    (l.foldl f s).treat = s.treat ∧ (l.foldl f s).clips = s.clips ∧ (l.foldl f s).highway = s.highway ∧
    (l.foldl f s).builder = s.builder ∧ (l.foldl f s).pending = s.pending := by
  induction l generalizing s with
  | nil => simp
  | cons a l ih => simp [List.foldl_cons, ih, h]

theorem foldl_framePeers {α : Type} (f : State → α → State) (h : ∀ s a,
    (f s a).cfg = s.cfg ∧ (f s a).load = s.load ∧ (f s a).time = s.time ∧ (f s a).agents = s.agents ∧
    (f s a).calls = s.calls ∧ (f s a).queues = s.queues ∧ (f s a).counts = s.counts ∧ (f s a).aht = s.aht ∧
    (f s a).deferrals = s.deferrals ∧ (f s a).treat = s.treat ∧ (f s a).clips = s.clips ∧
    (f s a).highway = s.highway ∧ (f s a).exch = s.exch ∧ (f s a).builder = s.builder ∧ (f s a).bus = s.bus ∧
    (f s a).port = s.port ∧ (f s a).pending = s.pending) (l : List α) (s : State) :
    (l.foldl f s).cfg = s.cfg ∧ (l.foldl f s).load = s.load ∧ (l.foldl f s).time = s.time ∧
    (l.foldl f s).agents = s.agents ∧ (l.foldl f s).calls = s.calls ∧ (l.foldl f s).queues = s.queues ∧
    (l.foldl f s).counts = s.counts ∧ (l.foldl f s).aht = s.aht ∧ (l.foldl f s).deferrals = s.deferrals ∧
    (l.foldl f s).treat = s.treat ∧ (l.foldl f s).clips = s.clips ∧ (l.foldl f s).highway = s.highway ∧
    (l.foldl f s).exch = s.exch ∧ (l.foldl f s).builder = s.builder ∧ (l.foldl f s).bus = s.bus ∧
    (l.foldl f s).port = s.port ∧ (l.foldl f s).pending = s.pending := by
  induction l generalizing s with
  | nil => simp
  | cons a l ih => simp [List.foldl_cons, ih, h]

@[simp] theorem State.place_frame (d : Directive) (s : State) :
   (s.place d).cfg = s.cfg ∧ (s.place d).load = s.load ∧ (s.place d).time = s.time ∧
   (s.place d).agents = s.agents ∧ (s.place d).calls = s.calls ∧ (s.place d).queues = s.queues ∧
   (s.place d).counts = s.counts ∧ (s.place d).aht = s.aht ∧ (s.place d).deferrals = s.deferrals ∧
   (s.place d).treat = s.treat ∧ (s.place d).clips = s.clips ∧ (s.place d).highway = s.highway ∧
   (s.place d).exch = s.exch ∧ (s.place d).peers = s.peers ∧ (s.place d).builder = s.builder ∧
   (s.place d).bus = s.bus ∧ (s.place d).pending = s.pending := by
  unfold State.place; (repeat' split) <;> simp

@[simp] theorem State.await_frame (w : RoomWait) (s : State) :
   (s.await w).cfg = s.cfg ∧ (s.await w).load = s.load ∧ (s.await w).time = s.time ∧
   (s.await w).agents = s.agents ∧ (s.await w).calls = s.calls ∧ (s.await w).queues = s.queues ∧
   (s.await w).counts = s.counts ∧ (s.await w).aht = s.aht ∧ (s.await w).deferrals = s.deferrals ∧
   (s.await w).treat = s.treat ∧ (s.await w).clips = s.clips ∧ (s.await w).highway = s.highway ∧
   (s.await w).exch = s.exch ∧ (s.await w).peers = s.peers ∧ (s.await w).builder = s.builder ∧
   (s.await w).bus = s.bus ∧ (s.await w).pending = s.pending := by
  unfold State.await; (repeat' split) <;> simp

@[simp] theorem State.unawait_frame (w : RoomWait) (s : State) :
   (s.unawait w).cfg = s.cfg ∧ (s.unawait w).load = s.load ∧ (s.unawait w).time = s.time ∧
   (s.unawait w).agents = s.agents ∧ (s.unawait w).calls = s.calls ∧ (s.unawait w).queues = s.queues ∧
   (s.unawait w).counts = s.counts ∧ (s.unawait w).aht = s.aht ∧ (s.unawait w).deferrals = s.deferrals ∧
   (s.unawait w).treat = s.treat ∧ (s.unawait w).clips = s.clips ∧ (s.unawait w).highway = s.highway ∧
   (s.unawait w).exch = s.exch ∧ (s.unawait w).peers = s.peers ∧ (s.unawait w).builder = s.builder ∧
   (s.unawait w).bus = s.bus ∧ (s.unawait w).pending = s.pending := by
  unfold State.unawait; simp

@[simp] theorem State.enter_frame (p : Position) (st : AgentState) (s : State) :
   (s.enter p st).cfg = s.cfg ∧ (s.enter p st).load = s.load ∧ (s.enter p st).time = s.time ∧
   (s.enter p st).calls = s.calls ∧ (s.enter p st).queues = s.queues ∧ (s.enter p st).counts = s.counts ∧
   (s.enter p st).aht = s.aht ∧ (s.enter p st).deferrals = s.deferrals ∧ (s.enter p st).treat = s.treat ∧
   (s.enter p st).clips = s.clips ∧ (s.enter p st).highway = s.highway ∧ (s.enter p st).exch = s.exch ∧
   (s.enter p st).peers = s.peers ∧ (s.enter p st).builder = s.builder ∧ (s.enter p st).bus = s.bus ∧
   (s.enter p st).pending = s.pending := by
  unfold State.enter; (repeat' split) <;> simp

@[simp] theorem State.markCall_frame (c : Slot) (st : CallState) (s : State) :
   (s.markCall c st).cfg = s.cfg ∧ (s.markCall c st).load = s.load ∧ (s.markCall c st).time = s.time ∧
   (s.markCall c st).agents = s.agents ∧ (s.markCall c st).queues = s.queues ∧
   (s.markCall c st).counts = s.counts ∧ (s.markCall c st).aht = s.aht ∧
   (s.markCall c st).deferrals = s.deferrals ∧ (s.markCall c st).treat = s.treat ∧
   (s.markCall c st).clips = s.clips ∧ (s.markCall c st).highway = s.highway ∧ (s.markCall c st).exch = s.exch ∧
   (s.markCall c st).peers = s.peers ∧ (s.markCall c st).builder = s.builder ∧ (s.markCall c st).bus = s.bus ∧
   (s.markCall c st).pending = s.pending := by
  unfold State.markCall; cases st <;> simp

@[simp] theorem State.deferCall_frame (c : Slot) (b : Bool) (s : State) :
   (s.deferCall c b).cfg = s.cfg ∧ (s.deferCall c b).load = s.load ∧ (s.deferCall c b).time = s.time ∧
   (s.deferCall c b).agents = s.agents ∧ (s.deferCall c b).queues = s.queues ∧
   (s.deferCall c b).counts = s.counts ∧ (s.deferCall c b).aht = s.aht ∧
   (s.deferCall c b).deferrals = s.deferrals ∧ (s.deferCall c b).treat = s.treat ∧
   (s.deferCall c b).clips = s.clips ∧ (s.deferCall c b).highway = s.highway ∧ (s.deferCall c b).exch = s.exch ∧
   (s.deferCall c b).peers = s.peers ∧ (s.deferCall c b).builder = s.builder ∧ (s.deferCall c b).bus = s.bus ∧
   (s.deferCall c b).port = s.port ∧ (s.deferCall c b).pending = s.pending := by
  unfold State.deferCall; simp

@[simp] theorem State.deferAgent_frame (p : Position) (b : Bool) (s : State) :
   (s.deferAgent p b).cfg = s.cfg ∧ (s.deferAgent p b).load = s.load ∧ (s.deferAgent p b).time = s.time ∧
   (s.deferAgent p b).calls = s.calls ∧ (s.deferAgent p b).queues = s.queues ∧
   (s.deferAgent p b).counts = s.counts ∧ (s.deferAgent p b).aht = s.aht ∧
   (s.deferAgent p b).deferrals = s.deferrals ∧ (s.deferAgent p b).treat = s.treat ∧
   (s.deferAgent p b).clips = s.clips ∧ (s.deferAgent p b).highway = s.highway ∧
   (s.deferAgent p b).exch = s.exch ∧ (s.deferAgent p b).peers = s.peers ∧
   (s.deferAgent p b).builder = s.builder ∧ (s.deferAgent p b).bus = s.bus ∧ (s.deferAgent p b).port = s.port ∧
   (s.deferAgent p b).pending = s.pending := by
  unfold State.deferAgent; simp

@[simp] theorem State.countStale_frame (s : State) :
   (s.countStale).cfg = s.cfg ∧ (s.countStale).load = s.load ∧ (s.countStale).time = s.time ∧
   (s.countStale).agents = s.agents ∧ (s.countStale).calls = s.calls ∧ (s.countStale).queues = s.queues ∧
   (s.countStale).counts = s.counts ∧ (s.countStale).aht = s.aht ∧ (s.countStale).deferrals = s.deferrals ∧
   (s.countStale).treat = s.treat ∧ (s.countStale).clips = s.clips ∧ (s.countStale).highway = s.highway ∧
   (s.countStale).peers = s.peers ∧ (s.countStale).builder = s.builder ∧ (s.countStale).bus = s.bus ∧
   (s.countStale).port = s.port ∧ (s.countStale).pending = s.pending := by
  unfold State.countStale; simp

@[simp] theorem State.drive_frame (bs : List Byte) (s : State) :
   (s.drive bs).cfg = s.cfg ∧ (s.drive bs).load = s.load ∧ (s.drive bs).time = s.time ∧
   (s.drive bs).agents = s.agents ∧ (s.drive bs).calls = s.calls ∧ (s.drive bs).queues = s.queues ∧
   (s.drive bs).counts = s.counts ∧ (s.drive bs).aht = s.aht ∧ (s.drive bs).deferrals = s.deferrals ∧
   (s.drive bs).treat = s.treat ∧ (s.drive bs).clips = s.clips ∧ (s.drive bs).highway = s.highway ∧
   (s.drive bs).exch = s.exch ∧ (s.drive bs).peers = s.peers ∧ (s.drive bs).builder = s.builder ∧
   (s.drive bs).bus = s.bus ∧ (s.drive bs).pending = s.pending := by
  unfold State.drive; simp

@[simp] theorem State.answer_frame (o : OutcomeCode) (s : State) :
   (s.answer o).cfg = s.cfg ∧ (s.answer o).load = s.load ∧ (s.answer o).time = s.time ∧
   (s.answer o).agents = s.agents ∧ (s.answer o).calls = s.calls ∧ (s.answer o).queues = s.queues ∧
   (s.answer o).counts = s.counts ∧ (s.answer o).aht = s.aht ∧ (s.answer o).deferrals = s.deferrals ∧
   (s.answer o).treat = s.treat ∧ (s.answer o).clips = s.clips ∧ (s.answer o).highway = s.highway ∧
   (s.answer o).exch = s.exch ∧ (s.answer o).peers = s.peers ∧ (s.answer o).builder = s.builder ∧
   (s.answer o).bus = s.bus ∧ (s.answer o).pending = s.pending := by
  unfold State.answer; simp

@[simp] theorem State.alterStream_frame (n : StreamId) (f : Stream → Stream) (s : State) :
   (s.alterStream n f).cfg = s.cfg ∧ (s.alterStream n f).load = s.load ∧ (s.alterStream n f).time = s.time ∧
   (s.alterStream n f).agents = s.agents ∧ (s.alterStream n f).calls = s.calls ∧
   (s.alterStream n f).queues = s.queues ∧ (s.alterStream n f).counts = s.counts ∧
   (s.alterStream n f).aht = s.aht ∧ (s.alterStream n f).deferrals = s.deferrals ∧
   (s.alterStream n f).treat = s.treat ∧ (s.alterStream n f).highway = s.highway ∧
   (s.alterStream n f).exch = s.exch ∧ (s.alterStream n f).peers = s.peers ∧
   (s.alterStream n f).builder = s.builder ∧ (s.alterStream n f).bus = s.bus ∧ (s.alterStream n f).port = s.port ∧
   (s.alterStream n f).pending = s.pending := by
  unfold State.alterStream; simp

@[simp] theorem grantRead_frame (n : StreamId) (s : State) :
    (grantRead n s).cfg = s.cfg ∧ (grantRead n s).load = s.load ∧ (grantRead n s).time = s.time ∧
    (grantRead n s).agents = s.agents ∧ (grantRead n s).calls = s.calls ∧ (grantRead n s).queues = s.queues ∧
    (grantRead n s).counts = s.counts ∧ (grantRead n s).aht = s.aht ∧ (grantRead n s).deferrals = s.deferrals ∧
    (grantRead n s).treat = s.treat ∧ (grantRead n s).highway = s.highway ∧ (grantRead n s).exch = s.exch ∧
    (grantRead n s).peers = s.peers ∧ (grantRead n s).builder = s.builder ∧ (grantRead n s).bus = s.bus ∧
    (grantRead n s).port = s.port ∧ (grantRead n s).pending = s.pending := by
  unfold grantRead; (repeat' split) <;> simp

@[simp] theorem fetchTest_frame (s : State) :
    (fetchTest s).cfg = s.cfg ∧ (fetchTest s).load = s.load ∧ (fetchTest s).time = s.time ∧
    (fetchTest s).agents = s.agents ∧ (fetchTest s).calls = s.calls ∧ (fetchTest s).queues = s.queues ∧
    (fetchTest s).counts = s.counts ∧ (fetchTest s).aht = s.aht ∧ (fetchTest s).deferrals = s.deferrals ∧
    (fetchTest s).treat = s.treat ∧ (fetchTest s).highway = s.highway ∧ (fetchTest s).exch = s.exch ∧
    (fetchTest s).peers = s.peers ∧ (fetchTest s).builder = s.builder ∧ (fetchTest s).bus = s.bus ∧
    (fetchTest s).port = s.port ∧ (fetchTest s).pending = s.pending := by
  unfold fetchTest; (repeat' split) <;> simp

@[simp] theorem stopStream_frame (n : StreamId) (s : State) :
   (stopStream n s).cfg = s.cfg ∧ (stopStream n s).load = s.load ∧ (stopStream n s).time = s.time ∧
   (stopStream n s).agents = s.agents ∧ (stopStream n s).calls = s.calls ∧ (stopStream n s).queues = s.queues ∧
   (stopStream n s).counts = s.counts ∧ (stopStream n s).aht = s.aht ∧ (stopStream n s).deferrals = s.deferrals ∧
   (stopStream n s).treat = s.treat ∧ (stopStream n s).highway = s.highway ∧ (stopStream n s).exch = s.exch ∧
   (stopStream n s).peers = s.peers ∧ (stopStream n s).builder = s.builder ∧ (stopStream n s).bus = s.bus ∧
   (stopStream n s).port = s.port ∧ (stopStream n s).pending = s.pending := by
  unfold stopStream; (repeat' split) <;> simp

@[simp] theorem startStream_frame (n : StreamId) (clip : Nat) (s : State) :
   (startStream n clip s).cfg = s.cfg ∧ (startStream n clip s).load = s.load ∧
   (startStream n clip s).time = s.time ∧ (startStream n clip s).agents = s.agents ∧
   (startStream n clip s).calls = s.calls ∧ (startStream n clip s).queues = s.queues ∧
   (startStream n clip s).counts = s.counts ∧ (startStream n clip s).aht = s.aht ∧
   (startStream n clip s).deferrals = s.deferrals ∧ (startStream n clip s).treat = s.treat ∧
   (startStream n clip s).highway = s.highway ∧ (startStream n clip s).exch = s.exch ∧
   (startStream n clip s).peers = s.peers ∧ (startStream n clip s).builder = s.builder ∧
   (startStream n clip s).bus = s.bus ∧ (startStream n clip s).port = s.port ∧
   (startStream n clip s).pending = s.pending := by
  unfold startStream; (repeat' split) <;> simp

@[simp] theorem startBed_frame (b : Bed) (s : State) :
   (startBed b s).cfg = s.cfg ∧ (startBed b s).load = s.load ∧ (startBed b s).time = s.time ∧
   (startBed b s).agents = s.agents ∧ (startBed b s).calls = s.calls ∧ (startBed b s).queues = s.queues ∧
   (startBed b s).counts = s.counts ∧ (startBed b s).aht = s.aht ∧ (startBed b s).deferrals = s.deferrals ∧
   (startBed b s).treat = s.treat ∧ (startBed b s).highway = s.highway ∧ (startBed b s).exch = s.exch ∧
   (startBed b s).peers = s.peers ∧ (startBed b s).builder = s.builder ∧ (startBed b s).bus = s.bus ∧
   (startBed b s).port = s.port ∧ (startBed b s).pending = s.pending := by
  unfold startBed; simp

@[simp] theorem arriveRead_frame (bs : List Byte) (s : State) :
    (arriveRead bs s).cfg = s.cfg ∧ (arriveRead bs s).load = s.load ∧ (arriveRead bs s).time = s.time ∧
    (arriveRead bs s).agents = s.agents ∧ (arriveRead bs s).calls = s.calls ∧ (arriveRead bs s).queues = s.queues ∧
    (arriveRead bs s).counts = s.counts ∧ (arriveRead bs s).aht = s.aht ∧
    (arriveRead bs s).deferrals = s.deferrals ∧ (arriveRead bs s).treat = s.treat ∧
    (arriveRead bs s).highway = s.highway ∧ (arriveRead bs s).exch = s.exch ∧ (arriveRead bs s).peers = s.peers ∧
    (arriveRead bs s).builder = s.builder ∧ (arriveRead bs s).bus = s.bus ∧ (arriveRead bs s).port = s.port ∧
    (arriveRead bs s).pending = s.pending := by
  unfold arriveRead; dsimp only; split
  · simp
  · generalize s.stream _ = x; split <;> simp

@[simp] theorem beginDrive_frame (s : State) :
    (beginDrive s).cfg = s.cfg ∧ (beginDrive s).load = s.load ∧ (beginDrive s).time = s.time ∧
    (beginDrive s).agents = s.agents ∧ (beginDrive s).calls = s.calls ∧ (beginDrive s).queues = s.queues ∧
    (beginDrive s).counts = s.counts ∧ (beginDrive s).aht = s.aht ∧ (beginDrive s).deferrals = s.deferrals ∧
    (beginDrive s).treat = s.treat ∧ (beginDrive s).clips = s.clips ∧ (beginDrive s).exch = s.exch ∧
    (beginDrive s).peers = s.peers ∧ (beginDrive s).builder = s.builder ∧ (beginDrive s).bus = s.bus ∧
    (beginDrive s).port = s.port ∧ (beginDrive s).pending = s.pending := by
  unfold beginDrive; simp only [State.setHighway, and_self]

@[simp] theorem putSample_frame (n : StreamId) (b : Byte) (s : State) :
    (putSample n b s).cfg = s.cfg ∧ (putSample n b s).load = s.load ∧ (putSample n b s).time = s.time ∧
    (putSample n b s).agents = s.agents ∧ (putSample n b s).calls = s.calls ∧ (putSample n b s).queues = s.queues ∧
    (putSample n b s).counts = s.counts ∧ (putSample n b s).aht = s.aht ∧
    (putSample n b s).deferrals = s.deferrals ∧ (putSample n b s).treat = s.treat ∧
    (putSample n b s).clips = s.clips ∧ (putSample n b s).exch = s.exch ∧ (putSample n b s).peers = s.peers ∧
    (putSample n b s).builder = s.builder ∧ (putSample n b s).bus = s.bus ∧ (putSample n b s).port = s.port ∧
    (putSample n b s).pending = s.pending := by
  unfold putSample; (repeat' split) <;> simp

@[simp] theorem State.modVoice_frame (v : Voice) (x : Option Slot) (s : State) :
   (s.modVoice v x).cfg = s.cfg ∧ (s.modVoice v x).load = s.load ∧ (s.modVoice v x).time = s.time ∧
   (s.modVoice v x).agents = s.agents ∧ (s.modVoice v x).calls = s.calls ∧ (s.modVoice v x).queues = s.queues ∧
   (s.modVoice v x).counts = s.counts ∧ (s.modVoice v x).aht = s.aht ∧ (s.modVoice v x).deferrals = s.deferrals ∧
   (s.modVoice v x).clips = s.clips ∧ (s.modVoice v x).highway = s.highway ∧ (s.modVoice v x).exch = s.exch ∧
   (s.modVoice v x).peers = s.peers ∧ (s.modVoice v x).builder = s.builder ∧ (s.modVoice v x).bus = s.bus ∧
   (s.modVoice v x).port = s.port ∧ (s.modVoice v x).pending = s.pending := by
  unfold State.modVoice; simp

@[simp] theorem leaveBed_frame (h : HeardOn) (s : State) :
    (leaveBed h s).cfg = s.cfg ∧ (leaveBed h s).load = s.load ∧ (leaveBed h s).time = s.time ∧
    (leaveBed h s).agents = s.agents ∧ (leaveBed h s).calls = s.calls ∧ (leaveBed h s).queues = s.queues ∧
    (leaveBed h s).counts = s.counts ∧ (leaveBed h s).aht = s.aht ∧ (leaveBed h s).deferrals = s.deferrals ∧
    (leaveBed h s).highway = s.highway ∧ (leaveBed h s).exch = s.exch ∧ (leaveBed h s).peers = s.peers ∧
    (leaveBed h s).builder = s.builder ∧ (leaveBed h s).bus = s.bus ∧ (leaveBed h s).port = s.port ∧
    (leaveBed h s).pending = s.pending := by
  unfold leaveBed; (repeat' split) <;> simp

@[simp] theorem joinBed_frame (h : HeardOn) (s : State) :
    (joinBed h s).cfg = s.cfg ∧ (joinBed h s).load = s.load ∧ (joinBed h s).time = s.time ∧
    (joinBed h s).agents = s.agents ∧ (joinBed h s).calls = s.calls ∧ (joinBed h s).queues = s.queues ∧
    (joinBed h s).counts = s.counts ∧ (joinBed h s).aht = s.aht ∧ (joinBed h s).deferrals = s.deferrals ∧
    (joinBed h s).highway = s.highway ∧ (joinBed h s).exch = s.exch ∧ (joinBed h s).peers = s.peers ∧
    (joinBed h s).builder = s.builder ∧ (joinBed h s).bus = s.bus ∧ (joinBed h s).port = s.port ∧
    (joinBed h s).pending = s.pending := by
  unfold joinBed; (repeat' split) <;> simp

@[simp] theorem hearOn_frame (c : Slot) (h : HeardOn) (s : State) :
    (hearOn c h s).cfg = s.cfg ∧ (hearOn c h s).load = s.load ∧ (hearOn c h s).time = s.time ∧
    (hearOn c h s).agents = s.agents ∧ (hearOn c h s).queues = s.queues ∧ (hearOn c h s).counts = s.counts ∧
    (hearOn c h s).aht = s.aht ∧ (hearOn c h s).deferrals = s.deferrals ∧ (hearOn c h s).highway = s.highway ∧
    (hearOn c h s).exch = s.exch ∧ (hearOn c h s).peers = s.peers ∧ (hearOn c h s).builder = s.builder ∧
    (hearOn c h s).bus = s.bus ∧ (hearOn c h s).pending = s.pending := by
  unfold hearOn; (repeat' split) <;> simp

@[simp] theorem releaseVoice_frame (c : Slot) (s : State) :
    (releaseVoice c s).cfg = s.cfg ∧ (releaseVoice c s).load = s.load ∧ (releaseVoice c s).time = s.time ∧
    (releaseVoice c s).agents = s.agents ∧ (releaseVoice c s).calls = s.calls ∧
    (releaseVoice c s).queues = s.queues ∧ (releaseVoice c s).counts = s.counts ∧ (releaseVoice c s).aht = s.aht ∧
    (releaseVoice c s).deferrals = s.deferrals ∧ (releaseVoice c s).highway = s.highway ∧
    (releaseVoice c s).exch = s.exch ∧ (releaseVoice c s).peers = s.peers ∧
    (releaseVoice c s).builder = s.builder ∧ (releaseVoice c s).bus = s.bus ∧ (releaseVoice c s).port = s.port ∧
    (releaseVoice c s).pending = s.pending := by
  unfold releaseVoice; (repeat' split) <;> simp

@[simp] theorem setStep_frame (c : Slot) (d : Option Nat) (ds : Option (List Nat)) (s : State) :
   (setStep c d ds s).cfg = s.cfg ∧ (setStep c d ds s).load = s.load ∧ (setStep c d ds s).time = s.time ∧
   (setStep c d ds s).agents = s.agents ∧ (setStep c d ds s).queues = s.queues ∧
   (setStep c d ds s).counts = s.counts ∧ (setStep c d ds s).aht = s.aht ∧
   (setStep c d ds s).deferrals = s.deferrals ∧ (setStep c d ds s).treat = s.treat ∧
   (setStep c d ds s).clips = s.clips ∧ (setStep c d ds s).highway = s.highway ∧
   (setStep c d ds s).exch = s.exch ∧ (setStep c d ds s).peers = s.peers ∧
   (setStep c d ds s).builder = s.builder ∧ (setStep c d ds s).bus = s.bus ∧ (setStep c d ds s).port = s.port ∧
   (setStep c d ds s).pending = s.pending := by
  unfold setStep; simp

@[simp] theorem substitute_frame (c : Slot) (k : Call) (n : Nat) (s : State) :
   (substitute c k n s).cfg = s.cfg ∧ (substitute c k n s).load = s.load ∧ (substitute c k n s).time = s.time ∧
   (substitute c k n s).agents = s.agents ∧ (substitute c k n s).queues = s.queues ∧
   (substitute c k n s).counts = s.counts ∧ (substitute c k n s).aht = s.aht ∧
   (substitute c k n s).deferrals = s.deferrals ∧ (substitute c k n s).highway = s.highway ∧
   (substitute c k n s).exch = s.exch ∧ (substitute c k n s).peers = s.peers ∧
   (substitute c k n s).builder = s.builder ∧ (substitute c k n s).bus = s.bus ∧
   (substitute c k n s).pending = s.pending := by
  unfold substitute; simp

@[simp] theorem playClips_frame (c : Slot) (k : Call) (cs : List Nat) (ds : Option (List Nat)) (s : State) :
    (playClips c k cs ds s).cfg = s.cfg ∧ (playClips c k cs ds s).load = s.load ∧
    (playClips c k cs ds s).time = s.time ∧ (playClips c k cs ds s).agents = s.agents ∧
    (playClips c k cs ds s).queues = s.queues ∧ (playClips c k cs ds s).counts = s.counts ∧
    (playClips c k cs ds s).aht = s.aht ∧ (playClips c k cs ds s).deferrals = s.deferrals ∧
    (playClips c k cs ds s).highway = s.highway ∧ (playClips c k cs ds s).exch = s.exch ∧
    (playClips c k cs ds s).peers = s.peers ∧ (playClips c k cs ds s).builder = s.builder ∧
    (playClips c k cs ds s).bus = s.bus ∧ (playClips c k cs ds s).pending = s.pending := by
  unfold playClips; (repeat' split) <;> simp

@[simp] theorem startTimed_frame (c : Slot) (k : Call) (st : TreatStep) (s : State) :
   (startTimed c k st s).cfg = s.cfg ∧ (startTimed c k st s).load = s.load ∧ (startTimed c k st s).time = s.time ∧
   (startTimed c k st s).agents = s.agents ∧ (startTimed c k st s).queues = s.queues ∧
   (startTimed c k st s).counts = s.counts ∧ (startTimed c k st s).aht = s.aht ∧
   (startTimed c k st s).deferrals = s.deferrals ∧ (startTimed c k st s).highway = s.highway ∧
   (startTimed c k st s).exch = s.exch ∧ (startTimed c k st s).peers = s.peers ∧
   (startTimed c k st s).builder = s.builder ∧ (startTimed c k st s).bus = s.bus ∧
   (startTimed c k st s).pending = s.pending := by
  unfold startTimed; cases st <;> simp

@[simp] theorem stall_frame (c : Slot) (k : Call) (due : Nat) (s : State) :
   (stall c k due s).cfg = s.cfg ∧ (stall c k due s).load = s.load ∧ (stall c k due s).time = s.time ∧
   (stall c k due s).agents = s.agents ∧ (stall c k due s).queues = s.queues ∧
   (stall c k due s).counts = s.counts ∧ (stall c k due s).aht = s.aht ∧
   (stall c k due s).deferrals = s.deferrals ∧ (stall c k due s).highway = s.highway ∧
   (stall c k due s).exch = s.exch ∧ (stall c k due s).peers = s.peers ∧ (stall c k due s).builder = s.builder ∧
   (stall c k due s).bus = s.bus ∧ (stall c k due s).pending = s.pending := by
  unfold stall; simp

@[simp] theorem walk_frame (c : Slot) (k : Call) (fuel due : Nat) (s : State) :
    (walk c k fuel due s).cfg = s.cfg ∧ (walk c k fuel due s).load = s.load ∧ (walk c k fuel due s).time = s.time ∧
    (walk c k fuel due s).agents = s.agents ∧ (walk c k fuel due s).queues = s.queues ∧
    (walk c k fuel due s).counts = s.counts ∧ (walk c k fuel due s).aht = s.aht ∧
    (walk c k fuel due s).deferrals = s.deferrals ∧ (walk c k fuel due s).highway = s.highway ∧
    (walk c k fuel due s).exch = s.exch ∧ (walk c k fuel due s).peers = s.peers ∧
    (walk c k fuel due s).builder = s.builder ∧ (walk c k fuel due s).bus = s.bus ∧
    (walk c k fuel due s).pending = s.pending := by
  induction fuel generalizing due s with
  | zero => simp [walk]
  | succ n ih => unfold walk; (repeat' split) <;> simp [ih]

@[simp] theorem walkOn_frame (c : Slot) (s : State) :
    (walkOn c s).cfg = s.cfg ∧ (walkOn c s).load = s.load ∧ (walkOn c s).time = s.time ∧
    (walkOn c s).agents = s.agents ∧ (walkOn c s).queues = s.queues ∧ (walkOn c s).counts = s.counts ∧
    (walkOn c s).aht = s.aht ∧ (walkOn c s).deferrals = s.deferrals ∧ (walkOn c s).highway = s.highway ∧
    (walkOn c s).exch = s.exch ∧ (walkOn c s).peers = s.peers ∧ (walkOn c s).builder = s.builder ∧
    (walkOn c s).bus = s.bus ∧ (walkOn c s).pending = s.pending := by
  unfold walkOn; (repeat' split) <;> simp

@[simp] theorem boundary_frame (c : Slot) (s : State) :
    (boundary c s).cfg = s.cfg ∧ (boundary c s).load = s.load ∧ (boundary c s).time = s.time ∧
    (boundary c s).agents = s.agents ∧ (boundary c s).queues = s.queues ∧ (boundary c s).counts = s.counts ∧
    (boundary c s).aht = s.aht ∧ (boundary c s).deferrals = s.deferrals ∧ (boundary c s).highway = s.highway ∧
    (boundary c s).exch = s.exch ∧ (boundary c s).peers = s.peers ∧ (boundary c s).builder = s.builder ∧
    (boundary c s).bus = s.bus ∧ (boundary c s).pending = s.pending := by
  unfold boundary; (repeat' split) <;> simp

@[simp] theorem endStep_frame (c : Slot) (s : State) :
    (endStep c s).cfg = s.cfg ∧ (endStep c s).load = s.load ∧ (endStep c s).time = s.time ∧
    (endStep c s).agents = s.agents ∧ (endStep c s).queues = s.queues ∧ (endStep c s).counts = s.counts ∧
    (endStep c s).aht = s.aht ∧ (endStep c s).deferrals = s.deferrals ∧ (endStep c s).highway = s.highway ∧
    (endStep c s).exch = s.exch ∧ (endStep c s).peers = s.peers ∧ (endStep c s).builder = s.builder ∧
    (endStep c s).bus = s.bus ∧ (endStep c s).pending = s.pending := by
  unfold endStep; (repeat' split) <;> simp

@[simp] theorem endDeadline_frame (c : Slot) (s : State) :
    (endDeadline c s).cfg = s.cfg ∧ (endDeadline c s).load = s.load ∧ (endDeadline c s).time = s.time ∧
    (endDeadline c s).agents = s.agents ∧ (endDeadline c s).queues = s.queues ∧
    (endDeadline c s).counts = s.counts ∧ (endDeadline c s).aht = s.aht ∧
    (endDeadline c s).deferrals = s.deferrals ∧ (endDeadline c s).highway = s.highway ∧
    (endDeadline c s).exch = s.exch ∧ (endDeadline c s).peers = s.peers ∧ (endDeadline c s).builder = s.builder ∧
    (endDeadline c s).bus = s.bus ∧ (endDeadline c s).pending = s.pending := by
  unfold endDeadline; (repeat' split) <;> simp

@[simp] theorem clipFinished_frame (v : Voice) (s : State) :
    (clipFinished v s).cfg = s.cfg ∧ (clipFinished v s).load = s.load ∧ (clipFinished v s).time = s.time ∧
    (clipFinished v s).agents = s.agents ∧ (clipFinished v s).queues = s.queues ∧
    (clipFinished v s).counts = s.counts ∧ (clipFinished v s).aht = s.aht ∧
    (clipFinished v s).deferrals = s.deferrals ∧ (clipFinished v s).highway = s.highway ∧
    (clipFinished v s).exch = s.exch ∧ (clipFinished v s).peers = s.peers ∧
    (clipFinished v s).builder = s.builder ∧ (clipFinished v s).bus = s.bus ∧ (clipFinished v s).pending = s.pending := by
  unfold clipFinished; (repeat' split) <;> simp

@[simp] theorem startTreatment_frame (c : Slot) (s : State) :
   (startTreatment c s).cfg = s.cfg ∧ (startTreatment c s).load = s.load ∧ (startTreatment c s).time = s.time ∧
   (startTreatment c s).agents = s.agents ∧ (startTreatment c s).queues = s.queues ∧
   (startTreatment c s).counts = s.counts ∧ (startTreatment c s).aht = s.aht ∧
   (startTreatment c s).deferrals = s.deferrals ∧ (startTreatment c s).highway = s.highway ∧
   (startTreatment c s).exch = s.exch ∧ (startTreatment c s).peers = s.peers ∧
   (startTreatment c s).builder = s.builder ∧ (startTreatment c s).bus = s.bus ∧
   (startTreatment c s).pending = s.pending := by
  unfold startTreatment; (repeat' split) <;> simp

@[simp] theorem resumeHead_frame (s : State) :
    (resumeHead s).cfg = s.cfg ∧ (resumeHead s).load = s.load ∧ (resumeHead s).time = s.time ∧
    (resumeHead s).agents = s.agents ∧ (resumeHead s).queues = s.queues ∧ (resumeHead s).counts = s.counts ∧
    (resumeHead s).aht = s.aht ∧ (resumeHead s).deferrals = s.deferrals ∧ (resumeHead s).highway = s.highway ∧
    (resumeHead s).exch = s.exch ∧ (resumeHead s).peers = s.peers ∧ (resumeHead s).builder = s.builder ∧
    (resumeHead s).bus = s.bus ∧ (resumeHead s).pending = s.pending := by
  unfold resumeHead; (repeat' split) <;> simp

@[simp] theorem resumeHeld_frame (n : Nat) (s : State) :
    (resumeHeld n s).cfg = s.cfg ∧ (resumeHeld n s).load = s.load ∧ (resumeHeld n s).time = s.time ∧
    (resumeHeld n s).agents = s.agents ∧ (resumeHeld n s).queues = s.queues ∧ (resumeHeld n s).counts = s.counts ∧
    (resumeHeld n s).aht = s.aht ∧ (resumeHeld n s).deferrals = s.deferrals ∧
    (resumeHeld n s).highway = s.highway ∧ (resumeHeld n s).exch = s.exch ∧ (resumeHeld n s).peers = s.peers ∧
    (resumeHeld n s).builder = s.builder ∧ (resumeHeld n s).bus = s.bus ∧ (resumeHeld n s).pending = s.pending := by
  induction n generalizing s with
  | zero => simp [resumeHeld]
  | succ n ih => unfold resumeHeld; split <;> simp [ih]

@[simp] theorem resumeAll_frame (s : State) :
    (resumeAll s).cfg = s.cfg ∧ (resumeAll s).load = s.load ∧ (resumeAll s).time = s.time ∧
    (resumeAll s).agents = s.agents ∧ (resumeAll s).queues = s.queues ∧ (resumeAll s).counts = s.counts ∧
    (resumeAll s).aht = s.aht ∧ (resumeAll s).deferrals = s.deferrals ∧ (resumeAll s).highway = s.highway ∧
    (resumeAll s).exch = s.exch ∧ (resumeAll s).peers = s.peers ∧ (resumeAll s).builder = s.builder ∧
    (resumeAll s).bus = s.bus ∧ (resumeAll s).pending = s.pending := by
  unfold resumeAll; simp

@[simp] theorem endTreatment_frame (c : Slot) (s : State) :
    (endTreatment c s).cfg = s.cfg ∧ (endTreatment c s).load = s.load ∧ (endTreatment c s).time = s.time ∧
    (endTreatment c s).agents = s.agents ∧ (endTreatment c s).queues = s.queues ∧
    (endTreatment c s).counts = s.counts ∧ (endTreatment c s).aht = s.aht ∧
    (endTreatment c s).deferrals = s.deferrals ∧ (endTreatment c s).highway = s.highway ∧
    (endTreatment c s).exch = s.exch ∧ (endTreatment c s).peers = s.peers ∧
    (endTreatment c s).builder = s.builder ∧ (endTreatment c s).bus = s.bus ∧ (endTreatment c s).port = s.port ∧
    (endTreatment c s).pending = s.pending := by
  unfold endTreatment; (repeat' split) <;> simp

@[simp] theorem State.choose_frame (s : State) :
   (s.choose).cfg = s.cfg ∧ (s.choose).load = s.load ∧ (s.choose).time = s.time ∧ (s.choose).agents = s.agents ∧
   (s.choose).calls = s.calls ∧ (s.choose).queues = s.queues ∧ (s.choose).counts = s.counts ∧
   (s.choose).aht = s.aht ∧ (s.choose).deferrals = s.deferrals ∧ (s.choose).treat = s.treat ∧
   (s.choose).clips = s.clips ∧ (s.choose).highway = s.highway ∧ (s.choose).exch = s.exch ∧
   (s.choose).peers = s.peers ∧ (s.choose).builder = s.builder ∧ (s.choose).port = s.port ∧
   (s.choose).pending = s.pending := by
  unfold State.choose; simp

@[simp] theorem State.reply_frame (q : Station) (b : Body) (s : State) :
   (s.reply q b).cfg = s.cfg ∧ (s.reply q b).load = s.load ∧ (s.reply q b).time = s.time ∧
   (s.reply q b).agents = s.agents ∧ (s.reply q b).calls = s.calls ∧ (s.reply q b).queues = s.queues ∧
   (s.reply q b).counts = s.counts ∧ (s.reply q b).aht = s.aht ∧ (s.reply q b).deferrals = s.deferrals ∧
   (s.reply q b).treat = s.treat ∧ (s.reply q b).clips = s.clips ∧ (s.reply q b).highway = s.highway ∧
   (s.reply q b).exch = s.exch ∧ (s.reply q b).peers = s.peers ∧ (s.reply q b).builder = s.builder ∧
   (s.reply q b).port = s.port ∧ (s.reply q b).pending = s.pending := by
  unfold State.reply; (repeat' split) <;> simp

@[simp] theorem State.queueOrdinary_frame (q : Station) (b : Body) (s : State) :
   (s.queueOrdinary q b).cfg = s.cfg ∧ (s.queueOrdinary q b).load = s.load ∧ (s.queueOrdinary q b).time = s.time ∧
   (s.queueOrdinary q b).agents = s.agents ∧ (s.queueOrdinary q b).calls = s.calls ∧
   (s.queueOrdinary q b).queues = s.queues ∧ (s.queueOrdinary q b).counts = s.counts ∧
   (s.queueOrdinary q b).aht = s.aht ∧ (s.queueOrdinary q b).deferrals = s.deferrals ∧
   (s.queueOrdinary q b).treat = s.treat ∧ (s.queueOrdinary q b).clips = s.clips ∧
   (s.queueOrdinary q b).highway = s.highway ∧ (s.queueOrdinary q b).exch = s.exch ∧
   (s.queueOrdinary q b).peers = s.peers ∧ (s.queueOrdinary q b).builder = s.builder ∧
   (s.queueOrdinary q b).port = s.port ∧ (s.queueOrdinary q b).pending = s.pending := by
  unfold State.queueOrdinary; (repeat' split) <;> simp

@[simp] theorem placeSummary_frame (s : State) :
    (placeSummary s).cfg = s.cfg ∧ (placeSummary s).load = s.load ∧ (placeSummary s).time = s.time ∧
    (placeSummary s).agents = s.agents ∧ (placeSummary s).calls = s.calls ∧ (placeSummary s).queues = s.queues ∧
    (placeSummary s).counts = s.counts ∧ (placeSummary s).aht = s.aht ∧ (placeSummary s).deferrals = s.deferrals ∧
    (placeSummary s).treat = s.treat ∧ (placeSummary s).clips = s.clips ∧ (placeSummary s).highway = s.highway ∧
    (placeSummary s).exch = s.exch ∧ (placeSummary s).peers = s.peers ∧ (placeSummary s).port = s.port ∧
    (placeSummary s).pending = s.pending := by
  unfold placeSummary; simp

@[simp] theorem downshift_frame (s : State) :
    (downshift s).cfg = s.cfg ∧ (downshift s).load = s.load ∧ (downshift s).time = s.time ∧
    (downshift s).agents = s.agents ∧ (downshift s).calls = s.calls ∧ (downshift s).queues = s.queues ∧
    (downshift s).counts = s.counts ∧ (downshift s).aht = s.aht ∧ (downshift s).deferrals = s.deferrals ∧
    (downshift s).treat = s.treat ∧ (downshift s).clips = s.clips ∧ (downshift s).highway = s.highway ∧
    (downshift s).exch = s.exch ∧ (downshift s).peers = s.peers ∧ (downshift s).bus = s.bus ∧
    (downshift s).port = s.port ∧ (downshift s).pending = s.pending := by
  unfold downshift; (repeat' split) <;> simp

@[simp] theorem startBrisk_frame (s : State) :
   (startBrisk s).cfg = s.cfg ∧ (startBrisk s).load = s.load ∧ (startBrisk s).time = s.time ∧
   (startBrisk s).agents = s.agents ∧ (startBrisk s).calls = s.calls ∧ (startBrisk s).queues = s.queues ∧
   (startBrisk s).counts = s.counts ∧ (startBrisk s).aht = s.aht ∧ (startBrisk s).deferrals = s.deferrals ∧
   (startBrisk s).treat = s.treat ∧ (startBrisk s).clips = s.clips ∧ (startBrisk s).highway = s.highway ∧
   (startBrisk s).exch = s.exch ∧ (startBrisk s).peers = s.peers ∧ (startBrisk s).bus = s.bus ∧
   (startBrisk s).port = s.port ∧ (startBrisk s).pending = s.pending := by
  unfold startBrisk; simp

@[simp] theorem periodStep_frame (s : State) :
    (periodStep s).cfg = s.cfg ∧ (periodStep s).load = s.load ∧ (periodStep s).time = s.time ∧
    (periodStep s).agents = s.agents ∧ (periodStep s).calls = s.calls ∧ (periodStep s).queues = s.queues ∧
    (periodStep s).counts = s.counts ∧ (periodStep s).aht = s.aht ∧ (periodStep s).deferrals = s.deferrals ∧
    (periodStep s).treat = s.treat ∧ (periodStep s).clips = s.clips ∧ (periodStep s).highway = s.highway ∧
    (periodStep s).exch = s.exch ∧ (periodStep s).peers = s.peers ∧ (periodStep s).port = s.port ∧
    (periodStep s).pending = s.pending := by
  unfold periodStep; (repeat' split) <;> simp

@[simp] theorem ladder_frame (s : State) :
    (ladder s).cfg = s.cfg ∧ (ladder s).load = s.load ∧ (ladder s).time = s.time ∧ (ladder s).agents = s.agents ∧
    (ladder s).calls = s.calls ∧ (ladder s).queues = s.queues ∧ (ladder s).counts = s.counts ∧
    (ladder s).aht = s.aht ∧ (ladder s).deferrals = s.deferrals ∧ (ladder s).treat = s.treat ∧
    (ladder s).clips = s.clips ∧ (ladder s).highway = s.highway ∧ (ladder s).exch = s.exch ∧
    (ladder s).peers = s.peers ∧ (ladder s).port = s.port ∧ (ladder s).pending = s.pending := by
  unfold ladder; dsimp only; (repeat' split) <;> simp

@[simp] theorem noteSent_frame (b : Body) (s : State) :
    (noteSent b s).cfg = s.cfg ∧ (noteSent b s).load = s.load ∧ (noteSent b s).time = s.time ∧
    (noteSent b s).agents = s.agents ∧ (noteSent b s).calls = s.calls ∧ (noteSent b s).queues = s.queues ∧
    (noteSent b s).counts = s.counts ∧ (noteSent b s).aht = s.aht ∧ (noteSent b s).deferrals = s.deferrals ∧
    (noteSent b s).treat = s.treat ∧ (noteSent b s).clips = s.clips ∧ (noteSent b s).highway = s.highway ∧
    (noteSent b s).exch = s.exch ∧ (noteSent b s).peers = s.peers ∧ (noteSent b s).bus = s.bus ∧
    (noteSent b s).port = s.port ∧ (noteSent b s).pending = s.pending := by
  unfold noteSent; cases b <;> simp

@[simp] theorem enterJoining_frame (s : State) :
    (enterJoining s).cfg = s.cfg ∧ (enterJoining s).load = s.load ∧ (enterJoining s).time = s.time ∧
    (enterJoining s).agents = s.agents ∧ (enterJoining s).calls = s.calls ∧ (enterJoining s).queues = s.queues ∧
    (enterJoining s).counts = s.counts ∧ (enterJoining s).aht = s.aht ∧ (enterJoining s).deferrals = s.deferrals ∧
    (enterJoining s).treat = s.treat ∧ (enterJoining s).clips = s.clips ∧ (enterJoining s).highway = s.highway ∧
    (enterJoining s).exch = s.exch ∧ (enterJoining s).peers = s.peers ∧ (enterJoining s).builder = s.builder ∧
    (enterJoining s).port = s.port ∧ (enterJoining s).pending = s.pending := by
  unfold enterJoining; simp

@[simp] theorem State.setRow_frame (q : Station) (r : Option PeerRow) (s : State) :
   (s.setRow q r).cfg = s.cfg ∧ (s.setRow q r).load = s.load ∧ (s.setRow q r).time = s.time ∧
   (s.setRow q r).agents = s.agents ∧ (s.setRow q r).calls = s.calls ∧ (s.setRow q r).queues = s.queues ∧
   (s.setRow q r).counts = s.counts ∧ (s.setRow q r).aht = s.aht ∧ (s.setRow q r).deferrals = s.deferrals ∧
   (s.setRow q r).treat = s.treat ∧ (s.setRow q r).clips = s.clips ∧ (s.setRow q r).highway = s.highway ∧
   (s.setRow q r).exch = s.exch ∧ (s.setRow q r).builder = s.builder ∧ (s.setRow q r).bus = s.bus ∧
   (s.setRow q r).port = s.port ∧ (s.setRow q r).pending = s.pending := by
  unfold State.setRow; simp

@[simp] theorem State.peerChanged_frame (q : Station) (s : State) :
   (s.peerChanged q).cfg = s.cfg ∧ (s.peerChanged q).load = s.load ∧ (s.peerChanged q).time = s.time ∧
   (s.peerChanged q).agents = s.agents ∧ (s.peerChanged q).calls = s.calls ∧ (s.peerChanged q).queues = s.queues ∧
   (s.peerChanged q).counts = s.counts ∧ (s.peerChanged q).aht = s.aht ∧
   (s.peerChanged q).deferrals = s.deferrals ∧ (s.peerChanged q).treat = s.treat ∧
   (s.peerChanged q).clips = s.clips ∧ (s.peerChanged q).highway = s.highway ∧ (s.peerChanged q).exch = s.exch ∧
   (s.peerChanged q).builder = s.builder ∧ (s.peerChanged q).bus = s.bus ∧ (s.peerChanged q).port = s.port ∧
   (s.peerChanged q).pending = s.pending := by
  unfold State.peerChanged; simp

@[simp] theorem hearPeer_frame (q : Station) (s : State) :
    (hearPeer q s).cfg = s.cfg ∧ (hearPeer q s).load = s.load ∧ (hearPeer q s).time = s.time ∧
    (hearPeer q s).agents = s.agents ∧ (hearPeer q s).calls = s.calls ∧ (hearPeer q s).queues = s.queues ∧
    (hearPeer q s).counts = s.counts ∧ (hearPeer q s).aht = s.aht ∧ (hearPeer q s).deferrals = s.deferrals ∧
    (hearPeer q s).treat = s.treat ∧ (hearPeer q s).clips = s.clips ∧ (hearPeer q s).highway = s.highway ∧
    (hearPeer q s).exch = s.exch ∧ (hearPeer q s).builder = s.builder ∧ (hearPeer q s).bus = s.bus ∧
    (hearPeer q s).port = s.port ∧ (hearPeer q s).pending = s.pending := by
  unfold hearPeer; (repeat' split) <;> simp

@[simp] theorem losePeer_frame (s : State) (q : Station) :
    (losePeer s q).cfg = s.cfg ∧ (losePeer s q).load = s.load ∧ (losePeer s q).time = s.time ∧
    (losePeer s q).agents = s.agents ∧ (losePeer s q).calls = s.calls ∧ (losePeer s q).queues = s.queues ∧
    (losePeer s q).counts = s.counts ∧ (losePeer s q).aht = s.aht ∧ (losePeer s q).deferrals = s.deferrals ∧
    (losePeer s q).treat = s.treat ∧ (losePeer s q).clips = s.clips ∧ (losePeer s q).highway = s.highway ∧
    (losePeer s q).exch = s.exch ∧ (losePeer s q).builder = s.builder ∧ (losePeer s q).bus = s.bus ∧
    (losePeer s q).port = s.port ∧ (losePeer s q).pending = s.pending := by
  unfold losePeer; (repeat' split) <;> simp

@[simp] theorem clearPeers_frame (s : State) :
    (clearPeers s).cfg = s.cfg ∧ (clearPeers s).load = s.load ∧ (clearPeers s).time = s.time ∧
    (clearPeers s).agents = s.agents ∧ (clearPeers s).calls = s.calls ∧ (clearPeers s).queues = s.queues ∧
    (clearPeers s).counts = s.counts ∧ (clearPeers s).aht = s.aht ∧ (clearPeers s).deferrals = s.deferrals ∧
    (clearPeers s).treat = s.treat ∧ (clearPeers s).clips = s.clips ∧ (clearPeers s).highway = s.highway ∧
    (clearPeers s).exch = s.exch ∧ (clearPeers s).builder = s.builder ∧ (clearPeers s).bus = s.bus ∧
    (clearPeers s).port = s.port ∧ (clearPeers s).pending = s.pending := by
  unfold clearPeers; exact foldl_framePeers _ (fun _ _ => by simp) _ _

@[simp] theorem takeSummary_frame (q : Station) (es : List Entry) (s : State) :
    (takeSummary q es s).cfg = s.cfg ∧ (takeSummary q es s).load = s.load ∧ (takeSummary q es s).time = s.time ∧
    (takeSummary q es s).agents = s.agents ∧ (takeSummary q es s).calls = s.calls ∧
    (takeSummary q es s).queues = s.queues ∧ (takeSummary q es s).counts = s.counts ∧
    (takeSummary q es s).aht = s.aht ∧ (takeSummary q es s).deferrals = s.deferrals ∧
    (takeSummary q es s).treat = s.treat ∧ (takeSummary q es s).clips = s.clips ∧
    (takeSummary q es s).highway = s.highway ∧ (takeSummary q es s).exch = s.exch ∧
    (takeSummary q es s).builder = s.builder ∧ (takeSummary q es s).bus = s.bus ∧
    (takeSummary q es s).port = s.port ∧ (takeSummary q es s).pending = s.pending := by
  unfold takeSummary; (repeat' split) <;> simp

@[simp] theorem adjustEntry_frame (q : Station) (g : Group) (f : Entry → Entry) (s : State) :
    (adjustEntry q g f s).cfg = s.cfg ∧ (adjustEntry q g f s).load = s.load ∧ (adjustEntry q g f s).time = s.time ∧
    (adjustEntry q g f s).agents = s.agents ∧ (adjustEntry q g f s).calls = s.calls ∧
    (adjustEntry q g f s).queues = s.queues ∧ (adjustEntry q g f s).counts = s.counts ∧
    (adjustEntry q g f s).aht = s.aht ∧ (adjustEntry q g f s).deferrals = s.deferrals ∧
    (adjustEntry q g f s).treat = s.treat ∧ (adjustEntry q g f s).clips = s.clips ∧
    (adjustEntry q g f s).highway = s.highway ∧ (adjustEntry q g f s).exch = s.exch ∧
    (adjustEntry q g f s).builder = s.builder ∧ (adjustEntry q g f s).bus = s.bus ∧
    (adjustEntry q g f s).port = s.port ∧ (adjustEntry q g f s).pending = s.pending := by
  unfold adjustEntry; (repeat' split) <;> simp

@[simp] theorem adjustOffer_frame (q : Station) (g : Group) (s : State) :
    (adjustOffer q g s).cfg = s.cfg ∧ (adjustOffer q g s).load = s.load ∧ (adjustOffer q g s).time = s.time ∧
    (adjustOffer q g s).agents = s.agents ∧ (adjustOffer q g s).calls = s.calls ∧
    (adjustOffer q g s).queues = s.queues ∧ (adjustOffer q g s).counts = s.counts ∧
    (adjustOffer q g s).aht = s.aht ∧ (adjustOffer q g s).deferrals = s.deferrals ∧
    (adjustOffer q g s).treat = s.treat ∧ (adjustOffer q g s).clips = s.clips ∧
    (adjustOffer q g s).highway = s.highway ∧ (adjustOffer q g s).exch = s.exch ∧
    (adjustOffer q g s).builder = s.builder ∧ (adjustOffer q g s).bus = s.bus ∧ (adjustOffer q g s).port = s.port ∧
    (adjustOffer q g s).pending = s.pending := by
  unfold adjustOffer; simp

@[simp] theorem adjustDecline_frame (q : Station) (g : Group) (s : State) :
    (adjustDecline q g s).cfg = s.cfg ∧ (adjustDecline q g s).load = s.load ∧ (adjustDecline q g s).time = s.time ∧
    (adjustDecline q g s).agents = s.agents ∧ (adjustDecline q g s).calls = s.calls ∧
    (adjustDecline q g s).queues = s.queues ∧ (adjustDecline q g s).counts = s.counts ∧
    (adjustDecline q g s).aht = s.aht ∧ (adjustDecline q g s).deferrals = s.deferrals ∧
    (adjustDecline q g s).treat = s.treat ∧ (adjustDecline q g s).clips = s.clips ∧
    (adjustDecline q g s).highway = s.highway ∧ (adjustDecline q g s).exch = s.exch ∧
    (adjustDecline q g s).builder = s.builder ∧ (adjustDecline q g s).bus = s.bus ∧
    (adjustDecline q g s).port = s.port ∧ (adjustDecline q g s).pending = s.pending := by
  unfold adjustDecline; simp

@[simp] theorem adjustNocall_frame (q : Station) (g : Group) (s : State) :
    (adjustNocall q g s).cfg = s.cfg ∧ (adjustNocall q g s).load = s.load ∧ (adjustNocall q g s).time = s.time ∧
    (adjustNocall q g s).agents = s.agents ∧ (adjustNocall q g s).calls = s.calls ∧
    (adjustNocall q g s).queues = s.queues ∧ (adjustNocall q g s).counts = s.counts ∧
    (adjustNocall q g s).aht = s.aht ∧ (adjustNocall q g s).deferrals = s.deferrals ∧
    (adjustNocall q g s).treat = s.treat ∧ (adjustNocall q g s).clips = s.clips ∧
    (adjustNocall q g s).highway = s.highway ∧ (adjustNocall q g s).exch = s.exch ∧
    (adjustNocall q g s).builder = s.builder ∧ (adjustNocall q g s).bus = s.bus ∧
    (adjustNocall q g s).port = s.port ∧ (adjustNocall q g s).pending = s.pending := by
  unfold adjustNocall; simp

@[simp] theorem joinQueue_frame (c : Slot) (s : State) :
    (joinQueue c s).cfg = s.cfg ∧ (joinQueue c s).load = s.load ∧ (joinQueue c s).time = s.time ∧
    (joinQueue c s).agents = s.agents ∧ (joinQueue c s).calls = s.calls ∧ (joinQueue c s).counts = s.counts ∧
    (joinQueue c s).aht = s.aht ∧ (joinQueue c s).deferrals = s.deferrals ∧ (joinQueue c s).treat = s.treat ∧
    (joinQueue c s).clips = s.clips ∧ (joinQueue c s).highway = s.highway ∧ (joinQueue c s).exch = s.exch ∧
    (joinQueue c s).peers = s.peers ∧ (joinQueue c s).builder = s.builder ∧ (joinQueue c s).bus = s.bus ∧
    (joinQueue c s).port = s.port ∧ (joinQueue c s).pending = s.pending := by
  unfold joinQueue; (repeat' split) <;> simp

@[simp] theorem leaveQueue_frame (g : Group) (c : Slot) (s : State) :
    (leaveQueue g c s).cfg = s.cfg ∧ (leaveQueue g c s).load = s.load ∧ (leaveQueue g c s).time = s.time ∧
    (leaveQueue g c s).agents = s.agents ∧ (leaveQueue g c s).calls = s.calls ∧
    (leaveQueue g c s).counts = s.counts ∧ (leaveQueue g c s).aht = s.aht ∧
    (leaveQueue g c s).deferrals = s.deferrals ∧ (leaveQueue g c s).treat = s.treat ∧
    (leaveQueue g c s).clips = s.clips ∧ (leaveQueue g c s).highway = s.highway ∧
    (leaveQueue g c s).exch = s.exch ∧ (leaveQueue g c s).peers = s.peers ∧
    (leaveQueue g c s).builder = s.builder ∧ (leaveQueue g c s).bus = s.bus ∧ (leaveQueue g c s).port = s.port ∧
    (leaveQueue g c s).pending = s.pending := by
  unfold leaveQueue; simp

@[simp] theorem countOffered_frame (g : Group) (s : State) :
    (countOffered g s).cfg = s.cfg ∧ (countOffered g s).load = s.load ∧ (countOffered g s).time = s.time ∧
    (countOffered g s).agents = s.agents ∧ (countOffered g s).calls = s.calls ∧
    (countOffered g s).queues = s.queues ∧ (countOffered g s).aht = s.aht ∧
    (countOffered g s).deferrals = s.deferrals ∧ (countOffered g s).treat = s.treat ∧
    (countOffered g s).clips = s.clips ∧ (countOffered g s).highway = s.highway ∧
    (countOffered g s).exch = s.exch ∧ (countOffered g s).peers = s.peers ∧
    (countOffered g s).builder = s.builder ∧ (countOffered g s).bus = s.bus ∧ (countOffered g s).port = s.port ∧
    (countOffered g s).pending = s.pending := by
  unfold countOffered; simp

@[simp] theorem countAnsweredLocal_frame (g : Group) (s : State) :
    (countAnsweredLocal g s).cfg = s.cfg ∧ (countAnsweredLocal g s).load = s.load ∧
    (countAnsweredLocal g s).time = s.time ∧ (countAnsweredLocal g s).agents = s.agents ∧
    (countAnsweredLocal g s).calls = s.calls ∧ (countAnsweredLocal g s).queues = s.queues ∧
    (countAnsweredLocal g s).aht = s.aht ∧ (countAnsweredLocal g s).deferrals = s.deferrals ∧
    (countAnsweredLocal g s).treat = s.treat ∧ (countAnsweredLocal g s).clips = s.clips ∧
    (countAnsweredLocal g s).highway = s.highway ∧ (countAnsweredLocal g s).exch = s.exch ∧
    (countAnsweredLocal g s).peers = s.peers ∧ (countAnsweredLocal g s).builder = s.builder ∧
    (countAnsweredLocal g s).bus = s.bus ∧ (countAnsweredLocal g s).port = s.port ∧
    (countAnsweredLocal g s).pending = s.pending := by
  unfold countAnsweredLocal; simp

@[simp] theorem countAnsweredByPeers_frame (g : Group) (s : State) :
    (countAnsweredByPeers g s).cfg = s.cfg ∧ (countAnsweredByPeers g s).load = s.load ∧
    (countAnsweredByPeers g s).time = s.time ∧ (countAnsweredByPeers g s).agents = s.agents ∧
    (countAnsweredByPeers g s).calls = s.calls ∧ (countAnsweredByPeers g s).queues = s.queues ∧
    (countAnsweredByPeers g s).aht = s.aht ∧ (countAnsweredByPeers g s).deferrals = s.deferrals ∧
    (countAnsweredByPeers g s).treat = s.treat ∧ (countAnsweredByPeers g s).clips = s.clips ∧
    (countAnsweredByPeers g s).highway = s.highway ∧ (countAnsweredByPeers g s).exch = s.exch ∧
    (countAnsweredByPeers g s).peers = s.peers ∧ (countAnsweredByPeers g s).builder = s.builder ∧
    (countAnsweredByPeers g s).bus = s.bus ∧ (countAnsweredByPeers g s).port = s.port ∧
    (countAnsweredByPeers g s).pending = s.pending := by
  unfold countAnsweredByPeers; simp

@[simp] theorem countTakenFromPeers_frame (g : Group) (s : State) :
    (countTakenFromPeers g s).cfg = s.cfg ∧ (countTakenFromPeers g s).load = s.load ∧
    (countTakenFromPeers g s).time = s.time ∧ (countTakenFromPeers g s).agents = s.agents ∧
    (countTakenFromPeers g s).calls = s.calls ∧ (countTakenFromPeers g s).queues = s.queues ∧
    (countTakenFromPeers g s).aht = s.aht ∧ (countTakenFromPeers g s).deferrals = s.deferrals ∧
    (countTakenFromPeers g s).treat = s.treat ∧ (countTakenFromPeers g s).clips = s.clips ∧
    (countTakenFromPeers g s).highway = s.highway ∧ (countTakenFromPeers g s).exch = s.exch ∧
    (countTakenFromPeers g s).peers = s.peers ∧ (countTakenFromPeers g s).builder = s.builder ∧
    (countTakenFromPeers g s).bus = s.bus ∧ (countTakenFromPeers g s).port = s.port ∧
    (countTakenFromPeers g s).pending = s.pending := by
  unfold countTakenFromPeers; simp

@[simp] theorem countAbandoned_frame (g : Group) (s : State) :
    (countAbandoned g s).cfg = s.cfg ∧ (countAbandoned g s).load = s.load ∧ (countAbandoned g s).time = s.time ∧
    (countAbandoned g s).agents = s.agents ∧ (countAbandoned g s).calls = s.calls ∧
    (countAbandoned g s).queues = s.queues ∧ (countAbandoned g s).aht = s.aht ∧
    (countAbandoned g s).deferrals = s.deferrals ∧ (countAbandoned g s).treat = s.treat ∧
    (countAbandoned g s).clips = s.clips ∧ (countAbandoned g s).highway = s.highway ∧
    (countAbandoned g s).exch = s.exch ∧ (countAbandoned g s).peers = s.peers ∧
    (countAbandoned g s).builder = s.builder ∧ (countAbandoned g s).bus = s.bus ∧
    (countAbandoned g s).port = s.port ∧ (countAbandoned g s).pending = s.pending := by
  unfold countAbandoned; simp

@[simp] theorem countDiverted_frame (g : Group) (s : State) :
    (countDiverted g s).cfg = s.cfg ∧ (countDiverted g s).load = s.load ∧ (countDiverted g s).time = s.time ∧
    (countDiverted g s).agents = s.agents ∧ (countDiverted g s).calls = s.calls ∧
    (countDiverted g s).queues = s.queues ∧ (countDiverted g s).aht = s.aht ∧
    (countDiverted g s).deferrals = s.deferrals ∧ (countDiverted g s).treat = s.treat ∧
    (countDiverted g s).clips = s.clips ∧ (countDiverted g s).highway = s.highway ∧
    (countDiverted g s).exch = s.exch ∧ (countDiverted g s).peers = s.peers ∧
    (countDiverted g s).builder = s.builder ∧ (countDiverted g s).bus = s.bus ∧ (countDiverted g s).port = s.port ∧
    (countDiverted g s).pending = s.pending := by
  unfold countDiverted; simp

@[simp] theorem countRonaReturn_frame (g : Group) (s : State) :
    (countRonaReturn g s).cfg = s.cfg ∧ (countRonaReturn g s).load = s.load ∧ (countRonaReturn g s).time = s.time ∧
    (countRonaReturn g s).agents = s.agents ∧ (countRonaReturn g s).calls = s.calls ∧
    (countRonaReturn g s).queues = s.queues ∧ (countRonaReturn g s).aht = s.aht ∧
    (countRonaReturn g s).deferrals = s.deferrals ∧ (countRonaReturn g s).treat = s.treat ∧
    (countRonaReturn g s).clips = s.clips ∧ (countRonaReturn g s).highway = s.highway ∧
    (countRonaReturn g s).exch = s.exch ∧ (countRonaReturn g s).peers = s.peers ∧
    (countRonaReturn g s).builder = s.builder ∧ (countRonaReturn g s).bus = s.bus ∧
    (countRonaReturn g s).port = s.port ∧ (countRonaReturn g s).pending = s.pending := by
  unfold countRonaReturn; simp

@[simp] theorem countAnswer_frame (k : Call) (s : State) :
    (countAnswer k s).cfg = s.cfg ∧ (countAnswer k s).load = s.load ∧ (countAnswer k s).time = s.time ∧
    (countAnswer k s).agents = s.agents ∧ (countAnswer k s).calls = s.calls ∧ (countAnswer k s).queues = s.queues ∧
    (countAnswer k s).aht = s.aht ∧ (countAnswer k s).deferrals = s.deferrals ∧ (countAnswer k s).treat = s.treat ∧
    (countAnswer k s).clips = s.clips ∧ (countAnswer k s).highway = s.highway ∧ (countAnswer k s).exch = s.exch ∧
    (countAnswer k s).peers = s.peers ∧ (countAnswer k s).builder = s.builder ∧ (countAnswer k s).bus = s.bus ∧
    (countAnswer k s).port = s.port ∧ (countAnswer k s).pending = s.pending := by
  unfold countAnswer; (repeat' split) <;> simp

@[simp] theorem connect_frame (c : Slot) (s : State) :
    (connect c s).cfg = s.cfg ∧ (connect c s).load = s.load ∧ (connect c s).time = s.time ∧
    (connect c s).agents = s.agents ∧ (connect c s).aht = s.aht ∧ (connect c s).deferrals = s.deferrals ∧
    (connect c s).highway = s.highway ∧ (connect c s).exch = s.exch ∧ (connect c s).peers = s.peers ∧
    (connect c s).builder = s.builder ∧ (connect c s).bus = s.bus ∧ (connect c s).pending = s.pending := by
  unfold connect; (repeat' split) <;> simp

@[simp] theorem freeCall_frame (c : Slot) (s : State) :
    (freeCall c s).cfg = s.cfg ∧ (freeCall c s).load = s.load ∧ (freeCall c s).time = s.time ∧
    (freeCall c s).agents = s.agents ∧ (freeCall c s).counts = s.counts ∧ (freeCall c s).aht = s.aht ∧
    (freeCall c s).deferrals = s.deferrals ∧ (freeCall c s).highway = s.highway ∧ (freeCall c s).exch = s.exch ∧
    (freeCall c s).peers = s.peers ∧ (freeCall c s).builder = s.builder ∧ (freeCall c s).bus = s.bus ∧
    (freeCall c s).pending = s.pending := by
  unfold freeCall; (repeat' split) <;> simp

@[simp] theorem takeDivert_frame (c : Slot) (s : State) :
    (takeDivert c s).cfg = s.cfg ∧ (takeDivert c s).load = s.load ∧ (takeDivert c s).time = s.time ∧
    (takeDivert c s).agents = s.agents ∧ (takeDivert c s).aht = s.aht ∧ (takeDivert c s).deferrals = s.deferrals ∧
    (takeDivert c s).highway = s.highway ∧ (takeDivert c s).exch = s.exch ∧ (takeDivert c s).peers = s.peers ∧
    (takeDivert c s).builder = s.builder ∧ (takeDivert c s).bus = s.bus ∧ (takeDivert c s).pending = s.pending := by
  unfold takeDivert; (repeat' split) <;> simp

@[simp] theorem divertDue_frame (c : Slot) (s : State) :
    (divertDue c s).cfg = s.cfg ∧ (divertDue c s).load = s.load ∧ (divertDue c s).time = s.time ∧
    (divertDue c s).agents = s.agents ∧ (divertDue c s).aht = s.aht ∧ (divertDue c s).deferrals = s.deferrals ∧
    (divertDue c s).highway = s.highway ∧ (divertDue c s).exch = s.exch ∧ (divertDue c s).peers = s.peers ∧
    (divertDue c s).builder = s.builder ∧ (divertDue c s).bus = s.bus ∧ (divertDue c s).pending = s.pending := by
  unfold divertDue; dsimp only; split <;> simp

@[simp] theorem raiseTier_frame (c : Slot) (t : Fin 3) (s : State) :
    (raiseTier c t s).cfg = s.cfg ∧ (raiseTier c t s).load = s.load ∧ (raiseTier c t s).time = s.time ∧
    (raiseTier c t s).agents = s.agents ∧ (raiseTier c t s).queues = s.queues ∧
    (raiseTier c t s).counts = s.counts ∧ (raiseTier c t s).aht = s.aht ∧
    (raiseTier c t s).deferrals = s.deferrals ∧ (raiseTier c t s).treat = s.treat ∧
    (raiseTier c t s).clips = s.clips ∧ (raiseTier c t s).highway = s.highway ∧ (raiseTier c t s).exch = s.exch ∧
    (raiseTier c t s).peers = s.peers ∧ (raiseTier c t s).builder = s.builder ∧ (raiseTier c t s).bus = s.bus ∧
    (raiseTier c t s).port = s.port ∧ (raiseTier c t s).pending = s.pending := by
  unfold raiseTier; simp

@[simp] theorem removeClaim_frame (p : Position) (s : State) :
    (removeClaim p s).cfg = s.cfg ∧ (removeClaim p s).load = s.load ∧ (removeClaim p s).time = s.time ∧
    (removeClaim p s).agents = s.agents ∧ (removeClaim p s).calls = s.calls ∧ (removeClaim p s).queues = s.queues ∧
    (removeClaim p s).counts = s.counts ∧ (removeClaim p s).aht = s.aht ∧
    (removeClaim p s).deferrals = s.deferrals ∧ (removeClaim p s).treat = s.treat ∧
    (removeClaim p s).clips = s.clips ∧ (removeClaim p s).highway = s.highway ∧ (removeClaim p s).peers = s.peers ∧
    (removeClaim p s).builder = s.builder ∧ (removeClaim p s).bus = s.bus ∧ (removeClaim p s).port = s.port ∧
    (removeClaim p s).pending = s.pending := by
  unfold removeClaim; simp

@[simp] theorem bind_frame (p : Position) (r : CallRef) (g : Group) (s : State) :
    (bind p r g s).cfg = s.cfg ∧ (bind p r g s).load = s.load ∧ (bind p r g s).time = s.time ∧
    (bind p r g s).calls = s.calls ∧ (bind p r g s).queues = s.queues ∧ (bind p r g s).counts = s.counts ∧
    (bind p r g s).aht = s.aht ∧ (bind p r g s).deferrals = s.deferrals ∧ (bind p r g s).treat = s.treat ∧
    (bind p r g s).clips = s.clips ∧ (bind p r g s).highway = s.highway ∧ (bind p r g s).peers = s.peers ∧
    (bind p r g s).builder = s.builder ∧ (bind p r g s).bus = s.bus ∧ (bind p r g s).pending = s.pending := by
  unfold bind; simp

@[simp] theorem talk_frame (p : Position) (b : Binding) (s : State) :
    (talk p b s).cfg = s.cfg ∧ (talk p b s).load = s.load ∧ (talk p b s).time = s.time ∧
    (talk p b s).calls = s.calls ∧ (talk p b s).queues = s.queues ∧ (talk p b s).counts = s.counts ∧
    (talk p b s).aht = s.aht ∧ (talk p b s).deferrals = s.deferrals ∧ (talk p b s).treat = s.treat ∧
    (talk p b s).clips = s.clips ∧ (talk p b s).highway = s.highway ∧ (talk p b s).exch = s.exch ∧
    (talk p b s).peers = s.peers ∧ (talk p b s).builder = s.builder ∧ (talk p b s).bus = s.bus ∧
    (talk p b s).pending = s.pending := by
  unfold talk; simp

@[simp] theorem completeWrap_frame (p : Position) (w : WrapWork) (s : State) :
    (completeWrap p w s).cfg = s.cfg ∧ (completeWrap p w s).load = s.load ∧ (completeWrap p w s).time = s.time ∧
    (completeWrap p w s).calls = s.calls ∧ (completeWrap p w s).queues = s.queues ∧
    (completeWrap p w s).counts = s.counts ∧ (completeWrap p w s).deferrals = s.deferrals ∧
    (completeWrap p w s).treat = s.treat ∧ (completeWrap p w s).clips = s.clips ∧
    (completeWrap p w s).highway = s.highway ∧ (completeWrap p w s).exch = s.exch ∧
    (completeWrap p w s).peers = s.peers ∧ (completeWrap p w s).builder = s.builder ∧
    (completeWrap p w s).bus = s.bus ∧ (completeWrap p w s).port = s.port ∧ (completeWrap p w s).pending = s.pending := by
  unfold completeWrap; simp

@[simp] theorem windUp_frame (p : Position) (s : State) :
    (windUp p s).cfg = s.cfg ∧ (windUp p s).load = s.load ∧ (windUp p s).time = s.time ∧
    (windUp p s).calls = s.calls ∧ (windUp p s).queues = s.queues ∧ (windUp p s).counts = s.counts ∧
    (windUp p s).deferrals = s.deferrals ∧ (windUp p s).treat = s.treat ∧ (windUp p s).clips = s.clips ∧
    (windUp p s).highway = s.highway ∧ (windUp p s).peers = s.peers ∧ (windUp p s).builder = s.builder ∧
    (windUp p s).bus = s.bus ∧ (windUp p s).port = s.port ∧ (windUp p s).pending = s.pending := by
  unfold windUp; (repeat' split) <;> simp

@[simp] theorem secondEvent_frame (s : State) :
   (secondEvent s).cfg = s.cfg ∧ (secondEvent s).load = s.load ∧ (secondEvent s).calls = s.calls ∧
   (secondEvent s).queues = s.queues ∧ (secondEvent s).counts = s.counts ∧ (secondEvent s).aht = s.aht ∧
   (secondEvent s).deferrals = s.deferrals ∧ (secondEvent s).treat = s.treat ∧ (secondEvent s).clips = s.clips ∧
   (secondEvent s).highway = s.highway ∧ (secondEvent s).exch = s.exch ∧ (secondEvent s).peers = s.peers ∧
   (secondEvent s).builder = s.builder ∧ (secondEvent s).bus = s.bus ∧ (secondEvent s).port = s.port ∧
   (secondEvent s).pending = s.pending := by
  unfold secondEvent; (repeat' split) <;> simp

@[simp] theorem startOffer_frame (c : Slot) (k : Call) (q : Station) (g : Group) (s : State) :
   (startOffer c k q g s).cfg = s.cfg ∧ (startOffer c k q g s).load = s.load ∧
   (startOffer c k q g s).time = s.time ∧ (startOffer c k q g s).agents = s.agents ∧
   (startOffer c k q g s).queues = s.queues ∧ (startOffer c k q g s).counts = s.counts ∧
   (startOffer c k q g s).aht = s.aht ∧ (startOffer c k q g s).deferrals = s.deferrals ∧
   (startOffer c k q g s).treat = s.treat ∧ (startOffer c k q g s).clips = s.clips ∧
   (startOffer c k q g s).highway = s.highway ∧ (startOffer c k q g s).exch = s.exch ∧
   (startOffer c k q g s).builder = s.builder ∧ (startOffer c k q g s).pending = s.pending := by
  unfold startOffer; (repeat' split) <;> simp

@[simp] theorem startClaim_frame (p : Position) (h : Station) (g : Group) (n : Nat) (s : State) :
   (startClaim p h g n s).cfg = s.cfg ∧ (startClaim p h g n s).load = s.load ∧
   (startClaim p h g n s).time = s.time ∧ (startClaim p h g n s).calls = s.calls ∧
   (startClaim p h g n s).queues = s.queues ∧ (startClaim p h g n s).counts = s.counts ∧
   (startClaim p h g n s).aht = s.aht ∧ (startClaim p h g n s).deferrals = s.deferrals ∧
   (startClaim p h g n s).treat = s.treat ∧ (startClaim p h g n s).clips = s.clips ∧
   (startClaim p h g n s).highway = s.highway ∧ (startClaim p h g n s).peers = s.peers ∧
   (startClaim p h g n s).builder = s.builder ∧ (startClaim p h g n s).pending = s.pending := by
  unfold startClaim; (repeat' split) <;> simp

@[simp] theorem deferCallAttempt_frame (c : Slot) (s : State) :
    (deferCallAttempt c s).cfg = s.cfg ∧ (deferCallAttempt c s).load = s.load ∧
    (deferCallAttempt c s).time = s.time ∧ (deferCallAttempt c s).agents = s.agents ∧
    (deferCallAttempt c s).queues = s.queues ∧ (deferCallAttempt c s).counts = s.counts ∧
    (deferCallAttempt c s).aht = s.aht ∧ (deferCallAttempt c s).treat = s.treat ∧
    (deferCallAttempt c s).clips = s.clips ∧ (deferCallAttempt c s).highway = s.highway ∧
    (deferCallAttempt c s).exch = s.exch ∧ (deferCallAttempt c s).peers = s.peers ∧
    (deferCallAttempt c s).builder = s.builder ∧ (deferCallAttempt c s).bus = s.bus ∧
    (deferCallAttempt c s).port = s.port ∧ (deferCallAttempt c s).pending = s.pending := by
  unfold deferCallAttempt; simp

@[simp] theorem deferAgentAttempt_frame (p : Position) (s : State) :
    (deferAgentAttempt p s).cfg = s.cfg ∧ (deferAgentAttempt p s).load = s.load ∧
    (deferAgentAttempt p s).time = s.time ∧ (deferAgentAttempt p s).calls = s.calls ∧
    (deferAgentAttempt p s).queues = s.queues ∧ (deferAgentAttempt p s).counts = s.counts ∧
    (deferAgentAttempt p s).aht = s.aht ∧ (deferAgentAttempt p s).treat = s.treat ∧
    (deferAgentAttempt p s).clips = s.clips ∧ (deferAgentAttempt p s).highway = s.highway ∧
    (deferAgentAttempt p s).exch = s.exch ∧ (deferAgentAttempt p s).peers = s.peers ∧
    (deferAgentAttempt p s).builder = s.builder ∧ (deferAgentAttempt p s).bus = s.bus ∧
    (deferAgentAttempt p s).port = s.port ∧ (deferAgentAttempt p s).pending = s.pending := by
  unfold deferAgentAttempt; simp

@[simp] theorem bindLocal_frame (c : Slot) (k : Call) (p : Position) (s : State) :
    (bindLocal c k p s).cfg = s.cfg ∧ (bindLocal c k p s).load = s.load ∧ (bindLocal c k p s).time = s.time ∧
    (bindLocal c k p s).queues = s.queues ∧ (bindLocal c k p s).counts = s.counts ∧
    (bindLocal c k p s).aht = s.aht ∧ (bindLocal c k p s).deferrals = s.deferrals ∧
    (bindLocal c k p s).treat = s.treat ∧ (bindLocal c k p s).clips = s.clips ∧
    (bindLocal c k p s).highway = s.highway ∧ (bindLocal c k p s).peers = s.peers ∧
    (bindLocal c k p s).builder = s.builder ∧ (bindLocal c k p s).bus = s.bus ∧
    (bindLocal c k p s).pending = s.pending := by
  unfold bindLocal; (repeat' split) <;> simp

/-- With a record bound to the call's reference no agent is free for the call (R13). -/
theorem bestLocal_of_holder {s : State} {c : Slot} (h : (s.holderOf c).isSome) (k : Call) : bestLocal s c k = none := by
  simp [bestLocal, h]

/-- With none the choice is over all agents (R54, R67). -/
theorem bestLocal_of_no_holder {s : State} {c : Slot} (h : s.holderOf c = none) (k : Call) :
    bestLocal s c k = bestAgent s fun p => (scoreOver s (s.agent p) (s.eligibleGroups k)).1 := by
  simp [bestLocal, h]

/-- The agent named by a call-side attempt is refused by no record bound to the reference (R68). -/
theorem boundAgent_of_bestLocal {s : State} {c : Slot} {k : Call} {a : Position × Nat} {r : CallRef}
    (h : bestLocal s c k = some a) (hr : s.refOf c = some r) : s.boundAgent r = none := by
  unfold bestLocal at h
  split at h
  · cases h
  · rename_i hn
    simpa [State.holderOf, hr] using hn

/-- A refused pair: nothing changes (R13, R39). -/
theorem bindLocal_of_holder {s : State} {c : Slot} (h : (s.holderOf c).isSome) (k : Call) (p : Position) :
    bindLocal c k p s = s := by
  unfold bindLocal
  split
  · rfl
  · rename_i r hr
    have : (s.boundAgent r).isSome := by simpa [State.holderOf, hr] using h
    cases hb : s.boundAgent r <;> simp_all [State.bindable]

@[simp] theorem attemptCall_frame (c : Slot) (s : State) :
    (attemptCall c s).cfg = s.cfg ∧ (attemptCall c s).load = s.load ∧ (attemptCall c s).time = s.time ∧
    (attemptCall c s).queues = s.queues ∧ (attemptCall c s).counts = s.counts ∧ (attemptCall c s).aht = s.aht ∧
    (attemptCall c s).treat = s.treat ∧ (attemptCall c s).clips = s.clips ∧ (attemptCall c s).highway = s.highway ∧
    (attemptCall c s).builder = s.builder ∧ (attemptCall c s).pending = s.pending := by
  unfold attemptCall; (repeat' split) <;> simp

@[simp] theorem claimPart_frame (p : Position) (s : State) :
    (claimPart p s).cfg = s.cfg ∧ (claimPart p s).load = s.load ∧ (claimPart p s).time = s.time ∧
    (claimPart p s).calls = s.calls ∧ (claimPart p s).queues = s.queues ∧ (claimPart p s).counts = s.counts ∧
    (claimPart p s).aht = s.aht ∧ (claimPart p s).treat = s.treat ∧ (claimPart p s).clips = s.clips ∧
    (claimPart p s).highway = s.highway ∧ (claimPart p s).peers = s.peers ∧ (claimPart p s).builder = s.builder ∧
    (claimPart p s).pending = s.pending := by
  unfold claimPart; (repeat' split) <;> simp

@[simp] theorem attemptAgent_frame (full : Bool) (p : Position) (s : State) :
    (attemptAgent full p s).cfg = s.cfg ∧ (attemptAgent full p s).load = s.load ∧
    (attemptAgent full p s).time = s.time ∧ (attemptAgent full p s).queues = s.queues ∧
    (attemptAgent full p s).counts = s.counts ∧ (attemptAgent full p s).aht = s.aht ∧
    (attemptAgent full p s).treat = s.treat ∧ (attemptAgent full p s).clips = s.clips ∧
    (attemptAgent full p s).highway = s.highway ∧ (attemptAgent full p s).peers = s.peers ∧
    (attemptAgent full p s).builder = s.builder ∧ (attemptAgent full p s).pending = s.pending := by
  unfold attemptAgent; (repeat' split) <;> simp

@[simp] theorem serveCall_frame (s : State) (c : Slot) :
    (serveCall s c).cfg = s.cfg ∧ (serveCall s c).load = s.load ∧ (serveCall s c).time = s.time ∧
    (serveCall s c).queues = s.queues ∧ (serveCall s c).counts = s.counts ∧ (serveCall s c).aht = s.aht ∧
    (serveCall s c).treat = s.treat ∧ (serveCall s c).clips = s.clips ∧ (serveCall s c).highway = s.highway ∧
    (serveCall s c).builder = s.builder ∧ (serveCall s c).pending = s.pending := by
  unfold serveCall; (repeat' split) <;> simp

@[simp] theorem serveAgent_frame (s : State) (p : Position) :
    (serveAgent s p).cfg = s.cfg ∧ (serveAgent s p).load = s.load ∧ (serveAgent s p).time = s.time ∧
    (serveAgent s p).queues = s.queues ∧ (serveAgent s p).counts = s.counts ∧ (serveAgent s p).aht = s.aht ∧
    (serveAgent s p).treat = s.treat ∧ (serveAgent s p).clips = s.clips ∧ (serveAgent s p).highway = s.highway ∧
    (serveAgent s p).builder = s.builder ∧ (serveAgent s p).pending = s.pending := by
  unfold serveAgent; (repeat' split) <;> simp

@[simp] theorem activeCall_frame (s : State) (c : Slot) :
    (activeCall s c).cfg = s.cfg ∧ (activeCall s c).load = s.load ∧ (activeCall s c).time = s.time ∧
    (activeCall s c).queues = s.queues ∧ (activeCall s c).counts = s.counts ∧ (activeCall s c).aht = s.aht ∧
    (activeCall s c).treat = s.treat ∧ (activeCall s c).clips = s.clips ∧ (activeCall s c).highway = s.highway ∧
    (activeCall s c).builder = s.builder ∧ (activeCall s c).pending = s.pending := by
  unfold activeCall; (repeat' split) <;> simp

@[simp] theorem retryPass_frame (s : State) :
    (retryPass s).cfg = s.cfg ∧ (retryPass s).load = s.load ∧ (retryPass s).time = s.time ∧
    (retryPass s).queues = s.queues ∧ (retryPass s).counts = s.counts ∧ (retryPass s).aht = s.aht ∧
    (retryPass s).treat = s.treat ∧ (retryPass s).clips = s.clips ∧ (retryPass s).highway = s.highway ∧
    (retryPass s).builder = s.builder ∧ (retryPass s).pending = s.pending := by
  unfold retryPass
  have h := foldl_frame serveCall (fun _ _ => by simp) s.queuedSlots s
  have h' := foldl_frame serveAgent (fun _ _ => by simp) (List.finRange 48) (s.queuedSlots.foldl serveCall s)
  simp [h, h']

@[simp] theorem retryIfRoom_frame (s : State) :
    (retryIfRoom s).cfg = s.cfg ∧ (retryIfRoom s).load = s.load ∧ (retryIfRoom s).time = s.time ∧
    (retryIfRoom s).queues = s.queues ∧ (retryIfRoom s).counts = s.counts ∧ (retryIfRoom s).aht = s.aht ∧
    (retryIfRoom s).treat = s.treat ∧ (retryIfRoom s).clips = s.clips ∧ (retryIfRoom s).highway = s.highway ∧
    (retryIfRoom s).builder = s.builder ∧ (retryIfRoom s).pending = s.pending := by
  unfold retryIfRoom; (repeat' split) <;> simp

@[simp] theorem activePass_frame (s : State) :
    (activePass s).cfg = s.cfg ∧ (activePass s).load = s.load ∧ (activePass s).time = s.time ∧
    (activePass s).queues = s.queues ∧ (activePass s).counts = s.counts ∧ (activePass s).aht = s.aht ∧
    (activePass s).treat = s.treat ∧ (activePass s).clips = s.clips ∧ (activePass s).highway = s.highway ∧
    (activePass s).builder = s.builder ∧ (activePass s).pending = s.pending := by
  unfold activePass
  have h := foldl_frame activeCall (fun _ _ => by simp) s.queuedSlots s
  have h' := foldl_frame (fun s p => attemptAgent true p s) (fun _ _ => by simp) (List.finRange 48) (s.queuedSlots.foldl activeCall s)
  simp [h, h']

@[simp] theorem raisedCall_frame (q : Station) (gs : List Group) (s : State) (c : Slot) :
    (raisedCall q gs s c).cfg = s.cfg ∧ (raisedCall q gs s c).load = s.load ∧ (raisedCall q gs s c).time = s.time ∧
    (raisedCall q gs s c).queues = s.queues ∧ (raisedCall q gs s c).counts = s.counts ∧
    (raisedCall q gs s c).aht = s.aht ∧ (raisedCall q gs s c).treat = s.treat ∧
    (raisedCall q gs s c).clips = s.clips ∧ (raisedCall q gs s c).highway = s.highway ∧
    (raisedCall q gs s c).builder = s.builder ∧ (raisedCall q gs s c).pending = s.pending := by
  unfold raisedCall; (repeat' split) <;> simp

@[simp] theorem raisedPass_frame (q : Station) (l : List Nat) (s : State) :
    (raisedPass q l s).cfg = s.cfg ∧ (raisedPass q l s).load = s.load ∧ (raisedPass q l s).time = s.time ∧
    (raisedPass q l s).queues = s.queues ∧ (raisedPass q l s).counts = s.counts ∧ (raisedPass q l s).aht = s.aht ∧
    (raisedPass q l s).treat = s.treat ∧ (raisedPass q l s).clips = s.clips ∧
    (raisedPass q l s).highway = s.highway ∧ (raisedPass q l s).builder = s.builder ∧
    (raisedPass q l s).pending = s.pending := by
  unfold raisedPass; dsimp only; split
  · exact foldl_frame _ (fun _ _ => by simp) _ _
  · simp

@[simp] theorem clearMark_frame (c : Slot) (n : Option Station) (r : Bool) (f : State → State) (hf : ∀ s, (f s).cfg = s.cfg ∧ (f s).load = s.load ∧ (f s).time = s.time ∧ (f s).aht = s.aht ∧ (f s).highway = s.highway ∧
    (f s).builder = s.builder ∧ (f s).pending = s.pending) (s : State) :
    (clearMark c n r f s).cfg = s.cfg ∧ (clearMark c n r f s).load = s.load ∧ (clearMark c n r f s).time = s.time ∧
    (clearMark c n r f s).aht = s.aht ∧ (clearMark c n r f s).highway = s.highway ∧
    (clearMark c n r f s).builder = s.builder ∧ (clearMark c n r f s).pending = s.pending := by
  unfold clearMark; split
  · simp
  · dsimp only; (repeat' split) <;> simp [hf]

@[simp] theorem releaseAlert_frame (p : Position) (b : Binding) (n : Nat) (s : State) :
    (releaseAlert p b n s).cfg = s.cfg ∧ (releaseAlert p b n s).load = s.load ∧
    (releaseAlert p b n s).time = s.time ∧ (releaseAlert p b n s).aht = s.aht ∧
    (releaseAlert p b n s).highway = s.highway ∧ (releaseAlert p b n s).builder = s.builder ∧
    (releaseAlert p b n s).pending = s.pending := by
  unfold releaseAlert; dsimp only; (repeat' split)
  · simp
  all_goals simp

@[simp] theorem takeRona_frame (p : Position) (s : State) :
    (takeRona p s).cfg = s.cfg ∧ (takeRona p s).load = s.load ∧ (takeRona p s).time = s.time ∧
    (takeRona p s).aht = s.aht ∧ (takeRona p s).highway = s.highway ∧ (takeRona p s).builder = s.builder ∧
    (takeRona p s).pending = s.pending := by
  unfold takeRona; (repeat' split) <;> simp

@[simp] theorem unbind_frame (p : Position) (s : State) :
    (unbind p s).cfg = s.cfg ∧ (unbind p s).load = s.load ∧ (unbind p s).time = s.time ∧
    (unbind p s).queues = s.queues ∧ (unbind p s).counts = s.counts ∧ (unbind p s).aht = s.aht ∧
    (unbind p s).treat = s.treat ∧ (unbind p s).clips = s.clips ∧ (unbind p s).highway = s.highway ∧
    (unbind p s).peers = s.peers ∧ (unbind p s).builder = s.builder ∧ (unbind p s).pending = s.pending := by
  unfold unbind; (repeat' split) <;> simp

@[simp] theorem endClaim_frame (p : Position) (s : State) :
    (endClaim p s).cfg = s.cfg ∧ (endClaim p s).load = s.load ∧ (endClaim p s).time = s.time ∧
    (endClaim p s).calls = s.calls ∧ (endClaim p s).queues = s.queues ∧ (endClaim p s).counts = s.counts ∧
    (endClaim p s).aht = s.aht ∧ (endClaim p s).deferrals = s.deferrals ∧ (endClaim p s).treat = s.treat ∧
    (endClaim p s).clips = s.clips ∧ (endClaim p s).highway = s.highway ∧ (endClaim p s).peers = s.peers ∧
    (endClaim p s).builder = s.builder ∧ (endClaim p s).bus = s.bus ∧ (endClaim p s).pending = s.pending := by
  unfold endClaim; (repeat' split) <;> simp

@[simp] theorem takeWatch_frame (c : Slot) (s : State) :
    (takeWatch c s).cfg = s.cfg ∧ (takeWatch c s).load = s.load ∧ (takeWatch c s).time = s.time ∧
    (takeWatch c s).aht = s.aht ∧ (takeWatch c s).highway = s.highway ∧ (takeWatch c s).builder = s.builder ∧
    (takeWatch c s).pending = s.pending := by
  unfold takeWatch; (repeat' split)
  · simp
  all_goals simp

@[simp] theorem takeWaiter_frame (w : RoomWait) (s : State) :
    (takeWaiter w s).cfg = s.cfg ∧ (takeWaiter w s).load = s.load ∧ (takeWaiter w s).time = s.time ∧
    (takeWaiter w s).aht = s.aht ∧ (takeWaiter w s).highway = s.highway ∧ (takeWaiter w s).builder = s.builder ∧
    (takeWaiter w s).pending = s.pending := by
  cases w <;> simp [takeWaiter]

@[simp] theorem serveWaiters_frame (n : Nat) (s : State) :
   (serveWaiters n s).cfg = s.cfg ∧ (serveWaiters n s).load = s.load ∧ (serveWaiters n s).time = s.time ∧
   (serveWaiters n s).aht = s.aht ∧ (serveWaiters n s).highway = s.highway ∧
   (serveWaiters n s).builder = s.builder ∧ (serveWaiters n s).pending = s.pending := by
  induction n generalizing s with
  | zero => simp [serveWaiters]
  | succ n ih => unfold serveWaiters; (repeat' split) <;> simp [ih]

/-- With no waiter nothing is served (R169). -/
theorem serveWaiters_of_no_waits (n : Nat) {s : State} (h : s.port.waits = []) : serveWaiters n s = s := by
  cases n <;> simp [serveWaiters, h]

/-- A head whose need does not fit keeps every waiter where it is (R169). -/
theorem serveWaiters_of_no_room (n : Nat) {s : State} {w : RoomWait} {rest : List RoomWait} (h : s.port.waits = w :: rest)
    (room : s.free < waitNeed s w) : serveWaiters n s = s := by
  cases n <;> simp [serveWaiters, h, Nat.not_le.2 room]

@[simp] theorem serveRoom_eq (s : State) : serveRoom s = serveWaiters 33 s := rfl

@[simp] theorem removeHead_frame (s : State) :
    (removeHead s).cfg = s.cfg ∧ (removeHead s).load = s.load ∧ (removeHead s).time = s.time ∧
    (removeHead s).aht = s.aht ∧ (removeHead s).highway = s.highway ∧ (removeHead s).builder = s.builder ∧
    (removeHead s).pending = s.pending := by
  unfold removeHead; simp

@[simp] theorem enterIsolated_frame (x : IsolationCause) (s : State) :
    (enterIsolated x s).cfg = s.cfg ∧ (enterIsolated x s).load = s.load ∧ (enterIsolated x s).time = s.time ∧
    (enterIsolated x s).agents = s.agents ∧ (enterIsolated x s).calls = s.calls ∧
    (enterIsolated x s).queues = s.queues ∧ (enterIsolated x s).counts = s.counts ∧ (enterIsolated x s).aht = s.aht ∧
    (enterIsolated x s).deferrals = s.deferrals ∧ (enterIsolated x s).treat = s.treat ∧
    (enterIsolated x s).clips = s.clips ∧ (enterIsolated x s).highway = s.highway ∧
    (enterIsolated x s).exch = s.exch ∧ (enterIsolated x s).pending = s.pending := by
  cases x <;> simp [enterIsolated]

@[simp] theorem isolate_frame (x : IsolationCause) (s : State) :
    (isolate x s).cfg = s.cfg ∧ (isolate x s).load = s.load ∧ (isolate x s).time = s.time ∧
    (isolate x s).queues = s.queues ∧ (isolate x s).counts = s.counts ∧ (isolate x s).aht = s.aht ∧
    (isolate x s).treat = s.treat ∧ (isolate x s).clips = s.clips ∧ (isolate x s).highway = s.highway ∧
    (isolate x s).pending = s.pending := by
  unfold isolate; split <;> simp

@[simp] theorem takeAccept_frame (q : Station) (r : CallRef) (p : Position) (s : State) :
    (takeAccept q r p s).cfg = s.cfg ∧ (takeAccept q r p s).load = s.load ∧ (takeAccept q r p s).time = s.time ∧
    (takeAccept q r p s).queues = s.queues ∧ (takeAccept q r p s).counts = s.counts ∧
    (takeAccept q r p s).aht = s.aht ∧ (takeAccept q r p s).treat = s.treat ∧
    (takeAccept q r p s).clips = s.clips ∧ (takeAccept q r p s).highway = s.highway ∧
    (takeAccept q r p s).builder = s.builder ∧ (takeAccept q r p s).pending = s.pending := by
  unfold takeAccept; (repeat' split) <;> simp

@[simp] theorem takeDecline_frame (q : Station) (r : CallRef) (w : DeclineReason) (s : State) :
    (takeDecline q r w s).cfg = s.cfg ∧ (takeDecline q r w s).load = s.load ∧ (takeDecline q r w s).time = s.time ∧
    (takeDecline q r w s).aht = s.aht ∧ (takeDecline q r w s).highway = s.highway ∧
    (takeDecline q r w s).builder = s.builder ∧ (takeDecline q r w s).pending = s.pending := by
  unfold takeDecline; (repeat' split) <;> simp

@[simp] theorem takeAnswered_frame (q : Station) (r : CallRef) (p : Position) (s : State) :
    (takeAnswered q r p s).cfg = s.cfg ∧ (takeAnswered q r p s).load = s.load ∧
    (takeAnswered q r p s).time = s.time ∧ (takeAnswered q r p s).agents = s.agents ∧
    (takeAnswered q r p s).aht = s.aht ∧ (takeAnswered q r p s).deferrals = s.deferrals ∧
    (takeAnswered q r p s).highway = s.highway ∧ (takeAnswered q r p s).peers = s.peers ∧
    (takeAnswered q r p s).builder = s.builder ∧ (takeAnswered q r p s).bus = s.bus ∧
    (takeAnswered q r p s).pending = s.pending := by
  unfold takeAnswered; (repeat' split) <;> simp

@[simp] theorem takeReturned_frame (q : Station) (r : CallRef) (p : Position) (s : State) :
    (takeReturned q r p s).cfg = s.cfg ∧ (takeReturned q r p s).load = s.load ∧
    (takeReturned q r p s).time = s.time ∧ (takeReturned q r p s).aht = s.aht ∧
    (takeReturned q r p s).highway = s.highway ∧ (takeReturned q r p s).builder = s.builder ∧
    (takeReturned q r p s).pending = s.pending := by
  unfold takeReturned; (repeat' split) <;> simp

@[simp] theorem takeClaim_frame (q : Station) (g : Group) (p : Position) (n : Nat) (s : State) :
    (takeClaim q g p n s).cfg = s.cfg ∧ (takeClaim q g p n s).load = s.load ∧ (takeClaim q g p n s).time = s.time ∧
    (takeClaim q g p n s).agents = s.agents ∧ (takeClaim q g p n s).queues = s.queues ∧
    (takeClaim q g p n s).counts = s.counts ∧ (takeClaim q g p n s).aht = s.aht ∧
    (takeClaim q g p n s).deferrals = s.deferrals ∧ (takeClaim q g p n s).treat = s.treat ∧
    (takeClaim q g p n s).clips = s.clips ∧ (takeClaim q g p n s).highway = s.highway ∧
    (takeClaim q g p n s).exch = s.exch ∧ (takeClaim q g p n s).builder = s.builder ∧
    (takeClaim q g p n s).pending = s.pending := by
  unfold takeClaim; (repeat' split) <;> simp

@[simp] theorem answerRepeat_frame (h : Station) (r : CallRef) (p : Position) (s : State) :
    (answerRepeat h r p s).cfg = s.cfg ∧ (answerRepeat h r p s).load = s.load ∧
    (answerRepeat h r p s).time = s.time ∧ (answerRepeat h r p s).agents = s.agents ∧
    (answerRepeat h r p s).calls = s.calls ∧ (answerRepeat h r p s).queues = s.queues ∧
    (answerRepeat h r p s).counts = s.counts ∧ (answerRepeat h r p s).aht = s.aht ∧
    (answerRepeat h r p s).deferrals = s.deferrals ∧ (answerRepeat h r p s).treat = s.treat ∧
    (answerRepeat h r p s).clips = s.clips ∧ (answerRepeat h r p s).highway = s.highway ∧
    (answerRepeat h r p s).exch = s.exch ∧ (answerRepeat h r p s).peers = s.peers ∧
    (answerRepeat h r p s).builder = s.builder ∧ (answerRepeat h r p s).port = s.port ∧
    (answerRepeat h r p s).pending = s.pending := by
  unfold answerRepeat; (repeat' split) <;> simp

@[simp] theorem takeOffer_frame (h : Station) (r : CallRef) (g : Group) (pr : Nat) (t : Fin 3) (tag : Half) (s : State) :
    (takeOffer h r g pr t tag s).cfg = s.cfg ∧ (takeOffer h r g pr t tag s).load = s.load ∧
    (takeOffer h r g pr t tag s).time = s.time ∧ (takeOffer h r g pr t tag s).calls = s.calls ∧
    (takeOffer h r g pr t tag s).queues = s.queues ∧ (takeOffer h r g pr t tag s).counts = s.counts ∧
    (takeOffer h r g pr t tag s).aht = s.aht ∧ (takeOffer h r g pr t tag s).deferrals = s.deferrals ∧
    (takeOffer h r g pr t tag s).treat = s.treat ∧ (takeOffer h r g pr t tag s).clips = s.clips ∧
    (takeOffer h r g pr t tag s).highway = s.highway ∧ (takeOffer h r g pr t tag s).peers = s.peers ∧
    (takeOffer h r g pr t tag s).builder = s.builder ∧ (takeOffer h r g pr t tag s).pending = s.pending := by
  unfold takeOffer; (repeat' split) <;> simp

@[simp] theorem takeCancel_frame (r : CallRef) (s : State) :
    (takeCancel r s).cfg = s.cfg ∧ (takeCancel r s).load = s.load ∧ (takeCancel r s).time = s.time ∧
    (takeCancel r s).queues = s.queues ∧ (takeCancel r s).counts = s.counts ∧ (takeCancel r s).aht = s.aht ∧
    (takeCancel r s).treat = s.treat ∧ (takeCancel r s).clips = s.clips ∧ (takeCancel r s).highway = s.highway ∧
    (takeCancel r s).peers = s.peers ∧ (takeCancel r s).builder = s.builder ∧ (takeCancel r s).pending = s.pending := by
  unfold takeCancel; (repeat' split) <;> simp

@[simp] theorem takeNocall_frame (h : Station) (g : Group) (p : Position) (s : State) :
    (takeNocall h g p s).cfg = s.cfg ∧ (takeNocall h g p s).load = s.load ∧ (takeNocall h g p s).time = s.time ∧
    (takeNocall h g p s).queues = s.queues ∧ (takeNocall h g p s).counts = s.counts ∧
    (takeNocall h g p s).aht = s.aht ∧ (takeNocall h g p s).treat = s.treat ∧
    (takeNocall h g p s).clips = s.clips ∧ (takeNocall h g p s).highway = s.highway ∧
    (takeNocall h g p s).builder = s.builder ∧ (takeNocall h g p s).pending = s.pending := by
  unfold takeNocall; (repeat' split) <;> simp

@[simp] theorem summaryTaken_frame (q : Station) (es : List Entry) (s : State) :
   (summaryTaken q es s).cfg = s.cfg ∧ (summaryTaken q es s).load = s.load ∧ (summaryTaken q es s).time = s.time ∧
   (summaryTaken q es s).queues = s.queues ∧ (summaryTaken q es s).counts = s.counts ∧
   (summaryTaken q es s).aht = s.aht ∧ (summaryTaken q es s).treat = s.treat ∧
   (summaryTaken q es s).clips = s.clips ∧ (summaryTaken q es s).highway = s.highway ∧
   (summaryTaken q es s).builder = s.builder ∧ (summaryTaken q es s).pending = s.pending := by
  unfold summaryTaken; simp

@[simp] theorem handle_frame (q : Station) (b : Body) (s : State) :
    (handle q b s).cfg = s.cfg ∧ (handle q b s).load = s.load ∧ (handle q b s).time = s.time ∧
    (handle q b s).aht = s.aht ∧ (handle q b s).highway = s.highway ∧ (handle q b s).builder = s.builder ∧
    (handle q b s).pending = s.pending := by
  unfold handle; split; (cases b <;> simp); simp

@[simp] theorem duplicateTest_frame (b : Bool) (s : State) :
    (duplicateTest b s).cfg = s.cfg ∧ (duplicateTest b s).load = s.load ∧ (duplicateTest b s).time = s.time ∧
    (duplicateTest b s).queues = s.queues ∧ (duplicateTest b s).counts = s.counts ∧
    (duplicateTest b s).aht = s.aht ∧ (duplicateTest b s).treat = s.treat ∧ (duplicateTest b s).clips = s.clips ∧
    (duplicateTest b s).highway = s.highway ∧ (duplicateTest b s).pending = s.pending := by
  unfold duplicateTest; (repeat' split) <;> simp

@[simp] theorem takeFrame_frame (f : Frame) (s : State) :
    (takeFrame f s).cfg = s.cfg ∧ (takeFrame f s).load = s.load ∧ (takeFrame f s).time = s.time ∧
    (takeFrame f s).aht = s.aht ∧ (takeFrame f s).highway = s.highway ∧ (takeFrame f s).pending = s.pending := by
  unfold takeFrame; (repeat' split) <;> simp

@[simp] theorem receive_frame (f : Option Frame) (s : State) :
    (receive f s).cfg = s.cfg ∧ (receive f s).load = s.load ∧ (receive f s).time = s.time ∧
    (receive f s).aht = s.aht ∧ (receive f s).highway = s.highway ∧ (receive f s).pending = s.pending := by
  unfold receive; (repeat' split) <;> simp

end Sys2Proof.Machine
end

