-- ==== Sys2Proof/Laws/Attend.lean ====
section
/-! SUPPORT. What the attention line's response does: `attend` changes nothing but the pulse, and nothing at all
where the command makes no cause pending. -/

namespace Sys2Proof.Machine

/-- The causes read six parts of the state (R172). -/
theorem causePending_congr {s t : State} (fault : t.port.loadFault = s.port.loadFault)
    (loss : t.time.clockLoss = s.time.clockLoss) (iso : t.port.isolated = s.port.isolated)
    (peers : t.peers.changed = s.peers.changed) (dirs : t.port.directives = s.port.directives)
    (marks : ∀ p, (t.agent p).changed = (s.agent p).changed) (c : Cause) : causePending t c = causePending s c := by
  cases c <;> simp [causePending, fault, loss, iso, peers, dirs, marks, marked]

/-- A command that makes no cause pending leaves the line alone (R175). -/
theorem attend_of_no_new_cause {s t : State} (h : ∀ c, causePending t c = true → causePending s c = true) :
    attend s t = t := by
  have none_new : (causes.any fun c => causePending t c && !causePending s c) = false := by
    rw [List.any_eq_false]
    intro c _
    cases hc : causePending t c
    · simp
    · simp [h c hc]
  simp [attend, none_new]

/-- In level mode the pulse is never started (R175). -/
theorem attend_of_level {s t : State} (h : t.pulseMode = false) : attend s t = t := by simp [attend, h]

/-- All that `attend` can do: start the pulse. -/
theorem attend_cases (s t : State) : attend s t = t ∨ attend s t = { t with port := { t.port with pulse := true } } := by
  unfold attend State.modPort
  split <;> simp

@[simp] theorem attend_frame (s t : State) :
    (attend s t).cfg = t.cfg ∧ (attend s t).load = t.load ∧ (attend s t).time = t.time ∧
    (attend s t).agents = t.agents ∧ (attend s t).calls = t.calls ∧ (attend s t).queues = t.queues ∧
    (attend s t).counts = t.counts ∧ (attend s t).aht = t.aht ∧ (attend s t).deferrals = t.deferrals ∧
    (attend s t).treat = t.treat ∧ (attend s t).clips = t.clips ∧ (attend s t).highway = t.highway ∧
    (attend s t).exch = t.exch ∧ (attend s t).peers = t.peers ∧ (attend s t).builder = t.builder ∧
    (attend s t).bus = t.bus ∧ (attend s t).pending = t.pending := by
  rcases attend_cases s t with h | h <;> simp [h]

@[simp] theorem attend_port (s t : State) :
    (attend s t).port.directives = t.port.directives ∧ (attend s t).port.waits = t.port.waits ∧
    (attend s t).port.loadFault = t.port.loadFault ∧ (attend s t).port.isolated = t.port.isolated ∧
    (attend s t).port.transaction = t.port.transaction ∧ (attend s t).port.out = t.port.out := by
  rcases attend_cases s t with h | h <;> simp [h]

end Sys2Proof.Machine
end

