-- ==== Sys2Proof/Laws/Image.lean ====
section
/-! SUPPORT. The image checks in the terms of Safety.lean: which records are defined, which steps stand in a list, and
what a clamp is. -/

namespace Sys2Proof.Machine

/-! The conditions are rewritten before the definitions inside them unfold, because a decision unfolds with its
condition. -/

/-- A defined list, as a condition on the image (R176). -/
theorem listDefined_iff (img : List Byte) (l : Nat) : listDefined img l = true ↔ ListDefined img l := by
  simp only [listDefined, Bool.and_eq_true, decide_eq_true_eq]
  simp only [ListDefined, listLength]

/-- A defined group record, as a condition on the image (R176). -/
theorem groupDefined_iff {img : List Byte} {g : Nat} (h : g < 16) : groupDefined img g = true ↔ GroupDefined img g := by
  simp only [groupDefined, decide_eq_true_eq]
  simp only [GroupDefined, groupAt, h, true_and]

/-- A present clip, as a condition on the image (R176). -/
theorem clipPresent_iff (img : List Byte) (c : Nat) : clipPresent img c = true ↔ ClipPresent img c := by
  simp only [clipPresent, Bool.and_eq_true, decide_eq_true_eq]
  simp only [ClipPresent, clipLengthAt]

/-- The steps the checks visit are those within the defined lists (R178). -/
theorem mem_listedSteps (img : List Byte) (l i : Nat) :
    (l, i) ∈ listedSteps img ↔ ListDefined img l ∧ i < u16 img (592 + 4 * l) := by
  simp only [listedSteps, List.mem_flatMap, List.mem_filter, List.mem_range, List.mem_map, listDefined_iff, listLength]
  constructor
  · rintro ⟨a, ⟨h1, h2⟩, b, h3, h4⟩
    cases h4
    exact ⟨h2, h3⟩
  · rintro ⟨h1, h2⟩
    exact ⟨l, ⟨h1.1, h1⟩, i, h2, rfl⟩

/-- A check of the listed steps fails at one of them (R178). -/
theorem any_listedSteps (img : List Byte) (p : Nat × Nat → Bool) :
    (listedSteps img).any p = true ↔ ∃ l i, ListDefined img l ∧ i < u16 img (592 + 4 * l) ∧ p (l, i) = true := by
  simp only [List.any_eq_true, Prod.exists, mem_listedSteps, and_assoc]

/-- A clamp is the nearer bound (R179). -/
theorem clampTo_eq_nearer {lo hi : Nat} (h : lo ≤ hi) (n : Nat) : clampTo lo hi n = nearer lo hi n := by
  unfold clampTo nearer
  split <;> (try split) <;> omega

/-- The byte at an address, and 0 past the end of what was read (R176). -/
theorem u8_eq (img : List Byte) (a : Nat) : u8 img a = if h : a < img.length then img[a].toNat else 0 := by
  unfold u8
  split
  · rename_i h
    rw [List.drop_eq_getElem_cons h]
    rfl
  · rename_i h
    rw [List.drop_eq_nil_of_le (by omega)]
    rfl

end Sys2Proof.Machine
end

