-- ==== Sys2Proof/Laws/Line.lean ====
section
/-! SUPPORT. The bus line: how long a run of bytes is, which level stands where in it, how it reads back, and when the
pair is dominant. -/

namespace Sys2Proof.Machine

@[simp] theorem byteLevels_length (b : Byte) : (byteLevels b).length = 10 := by simp [byteLevels]
@[simp] theorem runLevels_nil : runLevels [] = [] := rfl
@[simp] theorem runLevels_cons (b : Byte) (bs : List Byte) : runLevels (b :: bs) = byteLevels b ++ runLevels bs := rfl

/-- A byte takes ten bit times (R117). -/
@[simp] theorem runLevels_length (bs : List Byte) : (runLevels bs).length = 10 * bs.length := by
  induction bs with
  | nil => rfl
  | cons b r ih => simp only [runLevels_cons, List.length_append, byteLevels_length, ih, List.length_cons]; omega

/-- The levels of byte `i` stand from bit time `10 * i` (R117). -/
theorem runLevels_at (bs : List Byte) (i : Nat) (h : i < bs.length) (j : Nat) (hj : j < 10) :
    (runLevels bs)[10 * i + j]? = (byteLevels bs[i])[j]? := by
  induction bs generalizing i with
  | nil => simp at h
  | cons b r ih =>
    cases i with
    | zero => rw [runLevels_cons, List.getElem?_append_left (by simpa using hj)]; simp
    | succ i =>
      rw [runLevels_cons, List.getElem?_append_right (by rw [byteLevels_length]; omega), byteLevels_length,
        show 10 * (i + 1) + j - 10 = 10 * i + j by omega]
      simpa using ih i (by simpa using h)

/-- The data bits of a byte read back as the byte. -/
theorem dataByte_levels : ∀ b : Byte, dataByte ((List.range 8).map fun i => bitLevel (b.getLsbD i)) = b := by
  decide +kernel

/-- The receiver takes the first byte of a run, and then the rest (R117). -/
theorem bytesOfLevels_byte (b : Byte) (rest : List Level) :
    bytesOfLevels (byteLevels b ++ rest) = (bytesOfLevels rest).map fun bs => b :: bs := by
  have e : byteLevels b = [.dominant, bitLevel (b.getLsbD 0), bitLevel (b.getLsbD 1), bitLevel (b.getLsbD 2),
    bitLevel (b.getLsbD 3), bitLevel (b.getLsbD 4), bitLevel (b.getLsbD 5), bitLevel (b.getLsbD 6),
    bitLevel (b.getLsbD 7), .recessive] := rfl
  have d := dataByte_levels b
  simp only [List.range_succ, List.range_zero, List.nil_append, List.map_cons, List.map_nil,
    List.cons_append] at d
  rw [e]
  simp only [List.cons_append, List.nil_append, bytesOfLevels, d]

/-- The pair is dominant when any station drives it so, and recessive otherwise (R117). -/
theorem pairAt_dominant (sending : List (List Level)) (i : Nat) :
    pairAt sending i = .dominant ↔ ∃ sent ∈ sending, sent[i]? = some .dominant := by
  have e : ∀ sent : List Level, driven sent i = .dominant ↔ sent[i]? = some .dominant := by
    intro sent
    unfold driven
    rw [List.getD_eq_getElem?_getD]
    cases sent[i]? <;> simp
  unfold pairAt pairLevel
  simp only [← e, List.mem_map]
  split <;> simp_all

/-- What an attempt puts on the line: the head of the queue with this station's ID as its source (R122). -/
theorem Bus.toSend_eq_some (b : Bus) (l : Lane) (f : Frame) :
    b.toSend l = some f ↔ b.id = some f.source ∧ b.headOf l = some ⟨f.dest, f.body⟩ := by
  obtain ⟨me, dest, body⟩ := f
  unfold Bus.toSend
  split
  · rename_i x y hx hy
    obtain ⟨d, c⟩ := y
    simp [hx, hy]
  · rename_i h
    simp only [reduceCtorEq, false_iff, not_and]
    exact fun h1 h2 => h _ _ h1 h2

/-- A summary taken into the slot changes only the slot and what stands beside it (R126). -/
@[simp] theorem Bus.takeSummary_frame (es : List Entry) (b : Bus) :
    (Bus.takeSummary es b).inHand = b.inHand ∧ (Bus.takeSummary es b).attempts = b.attempts ∧
    (Bus.takeSummary es b).backoff = b.backoff ∧ (Bus.takeSummary es b).line = b.line ∧
    (Bus.takeSummary es b).replies = b.replies ∧ (Bus.takeSummary es b).ordinary = b.ordinary ∧
    (Bus.takeSummary es b).station = b.station ∧ (Bus.takeSummary es b).id = b.id ∧
    (Bus.takeSummary es b).dropped = b.dropped := by
  unfold Bus.takeSummary
  split <;> simp

end Sys2Proof.Machine
end

