-- ==== Sys2Proof/Laws/Named.lean ====
section
/-! SUPPORT. The shared operations in the terms of the statements: each named operation as the change of the state
it is, and the events around the Shelf Port. -/

namespace Sys2Proof.Machine

theorem saturate_eq_min (m n : Nat) : saturate m n = min m n := by
  unfold saturate; split <;> omega

theorem count1_eq_min (n : Nat) : count1 n = min 65535 (n + 1) := saturate_eq_min ..

theorem countBy_eq_min (n k : Nat) : countBy n k = min 65535 (n + k) := saturate_eq_min ..

/-- Two updates of one element are one. -/
theorem alter_alter {α : Type} {n : Nat} (v : Vector α n) (i : Fin n) (f g : α → α) :
    alter (alter v i f) i g = alter v i fun a => g (f a) := by
  ext j hj
  simp only [alter_getElem]
  split
  · simp
  · rfl

/-- Only what an update makes of the element it updates counts. -/
theorem alter_congr {α : Type} {n : Nat} (v : Vector α n) (i : Fin n) {f g : α → α} (h : f v[i] = g v[i]) :
    alter v i f = alter v i g := by unfold alter; rw [h]

/-- Updating an element to itself changes nothing. -/
theorem alter_id {α : Type} {n : Nat} (v : Vector α n) (i : Fin n) {f : α → α} (h : f v[i] = v[i]) : alter v i f = v := by
  ext j hj
  simp only [alter_getElem]
  split
  · subst_vars; exact h
  · rfl

theorem alterAll_eq {α : Type} {n : Nat} (v : Vector α n) (f : α → α) : alterAll v f = Vector.ofFn fun i => f v[i] := rfl

/-! ### The attention line -/

/-- A command that leaves the six parts the causes read leaves the line alone (R175). -/
theorem attend_same {s t : State} (fault : t.port.loadFault = s.port.loadFault) (loss : t.time.clockLoss = s.time.clockLoss)
    (iso : t.port.isolated = s.port.isolated) (peers : t.peers.changed = s.peers.changed)
    (dirs : t.port.directives = s.port.directives) (marks : ∀ p, (t.agent p).changed = (s.agent p).changed) :
    attend s t = t :=
  attend_of_no_new_cause fun c h => by rwa [causePending_congr fault loss iso peers dirs marks c] at h

@[simp] theorem attend_answered (s : State) (bytes : List Byte) : attend s (answered s bytes) = answered s bytes :=
  attend_same rfl rfl rfl rfl rfl fun _ => rfl

@[simp] theorem attend_self (s : State) : attend s s = s := attend_same rfl rfl rfl rfl rfl fun _ => rfl

/-! ### The select line and the events -/

theorem selectRises_raised {s : State} (h : NoRestart s) : selectRises s = raised s := by
  unfold selectRises NoRestart at *
  split <;> simp_all [raised, State.inTransaction, State.modPort]

theorem raised_answer (s : State) (o : OutcomeCode) : (raised s).answer o = answered s [o.byte] := rfl

theorem raised_drive (s : State) (bytes : List Byte) : (raised s).drive bytes = answered s bytes := rfl

@[simp] theorem raised_frame (s : State) :
    (raised s).cfg = s.cfg ∧ (raised s).load = s.load ∧ (raised s).time = s.time ∧ (raised s).agents = s.agents ∧
    (raised s).calls = s.calls ∧ (raised s).queues = s.queues ∧ (raised s).counts = s.counts ∧ (raised s).aht = s.aht ∧
    (raised s).deferrals = s.deferrals ∧ (raised s).treat = s.treat ∧ (raised s).clips = s.clips ∧
    (raised s).highway = s.highway ∧ (raised s).exch = s.exch ∧ (raised s).peers = s.peers ∧
    (raised s).builder = s.builder ∧ (raised s).bus = s.bus ∧ (raised s).pending = s.pending := by simp [raised]

/-- A trunk event past the select line. -/
theorem event_shelfEvent {s : State} (h : NoRestart s) (n : Nat) (act : State → State) :
    event (shelfEvent n act) s = .next (attend s ((act (raised s)).clockOut n)) := by
  simp [event, shelfEvent, selectRises_raised h]

/-- An answer that `n` bytes are clocked out of is what the part has driven (R166). -/
@[simp] theorem drive_clockOut (s : State) (n : Nat) (bytes : List Byte) :
    (s.drive bytes).clockOut n = s.drive (clockedOut n bytes) := rfl

@[simp] theorem answer_clockOut (s : State) (n : Nat) (o : OutcomeCode) :
    (s.answer o).clockOut n = s.drive (clockedOut n [o.byte]) := rfl

/-- A rise of select within the answer cuts it short (R166). -/
theorem clockedOut_short {n : Nat} {answer : List Byte} (h : n ≤ answer.length) : clockedOut n answer = answer.take n := by
  simp [clockedOut, List.take_append_of_le_length h]

/-- Zero bytes follow an answer wholly clocked out (R165). -/
theorem clockedOut_long {n : Nat} {answer : List Byte} (h : answer.length ≤ n) :
    clockedOut n answer = answer ++ List.replicate (n - answer.length) 0 := by
  rw [clockedOut, List.take_append, List.take_of_length_le h, List.take_replicate, Nat.min_eq_left (by omega)]

/-- An agent event in service, with its position and its other fields in range (R4). -/
theorem event_agentEvent {s : State} (h : TakesEvents s) (p : Position) (fields : State → Bool)
    (act : Position → State → State) (n : Nat) (inRange : fields (raised s) = true) :
    event (agentEvent n p.val fields act) s = .next (attend s ((act p (raised s)).clockOut n)) := by
  obtain ⟨inService, rises⟩ := h
  have out : (raised s).outOfService = false := inService
  simp [event, agentEvent, shelfEvent, selectRises_raised rises, out, inRange]

/-- A command that is its effect. -/
theorem event_eq (effect : State → State) (s : State) : event effect s = .next (attend s (effect s)) := rfl

/-! ### The operations -/

theorem place_placed {s : State} (d : Directive) (h : 0 < s.free) : s.place d = placed [d] s := by
  have : s.port.directives.length < directiveCapacity := by unfold State.free at h; omega
  simp [State.place, this, State.modPort, placed]

theorem placed_placed (ds es : List Directive) (s : State) : placed es (placed ds s) = placed (ds ++ es) s := by
  simp [placed]

theorem place_place {s : State} (d e : Directive) (h : 2 ≤ s.free) : (s.place d).place e = placed [d, e] s := by
  have free : 0 < (placed [d] s).free := by
    simp only [State.free, placed, List.length_append, List.length_singleton] at *; omega
  rw [place_placed d (by omega), place_placed e free, placed_placed]; rfl

theorem unawait_unawaited (w : RoomWait) (s : State) : s.unawait w = unawaited w s := rfl

theorem await_awaited (w : RoomWait) (s : State) : s.await w = awaited w s := by
  unfold State.await awaited; split <;> simp_all [State.modPort]

theorem alterCall_becomes (c : Slot) (f : Call → Call) (s : State) : s.alterCall c f = callBecomes c f s := rfl

/-- The call a slot holds is all that an update of it reads. -/
theorem callBecomes_congr {s : State} {c : Slot} {k : Call} (hk : s.callAt c = some k) {f g : Call → Call} (h : f k = g k) :
    callBecomes c f s = callBecomes c g s := by
  have held : s.calls[c].call = some k := hk
  unfold callBecomes
  rw [alter_congr (g := fun r => { r with call := r.call.map g }) s.calls c (by simp only [held, Option.map_some, h])]

theorem callBecomes_callBecomes (c : Slot) (f g : Call → Call) (s : State) :
    callBecomes c g (callBecomes c f s) = callBecomes c (fun k => g (f k)) s := by
  simp only [callBecomes, alter_alter, Option.map_map]; rfl

theorem deferCall_becomes (c : Slot) (b : Bool) (s : State) : s.deferCall c b = callBecomesDeferred c b id s := by
  simp [State.deferCall, State.alterSlot, callBecomesDeferred]

theorem deferCall_callBecomes (c : Slot) (b : Bool) (f : Call → Call) (s : State) :
    (callBecomes c f s).deferCall c b = callBecomesDeferred c b f s := by
  simp [State.deferCall, State.alterSlot, callBecomes, callBecomesDeferred, alter_alter]

theorem enter_ready (p : Position) (t : Nat) (s : State) : s.enter p (.ready t) = entersReady p t s := by
  simp [State.enter, entersReady, State.alterAgent, State.unawait, State.modPort, AgentState.readyNow, AgentState.alertingNow]

theorem enter_enters (p : Position) (st : AgentState) (s : State) (ready : st.readyNow = false)
    (alerting : st.alertingNow = false) : s.enter p st = enters p st s := by
  simp [State.enter, enters, State.alterAgent, State.unawait, State.modPort, ready, alerting]

theorem completeWrap_completed (p : Position) (w : WrapWork) (s : State) : completeWrap p w s = wrapCompleted p w s := by
  simp only [completeWrap, wrapCompleted, State.setAht, State.alterAgent, countBy_eq_min]
  congr 1

theorem removeClaim_removed (p : Position) (s : State) : removeClaim p s = claimRemoved p s := rfl

theorem markCall_remote (c : Slot) (q : Station) (a : Position) (d : Nat) (s : State) :
    s.markCall c (.alertingRemote q a d) = callBecomes c (fun k => { k with state := .alertingRemote q a d }) s := rfl

theorem markCall_other (c : Slot) (st : CallState) (s : State) (h : ∀ q a d, st ≠ .alertingRemote q a d) :
    s.markCall c st = unawaited (.watch c) (callBecomes c (fun k => { k with state := st }) s) := by
  cases st <;> first | rfl | exact absurd rfl (h _ _ _)

theorem countStale_counted (s : State) : s.countStale = staleCounted s := by
  simp [State.countStale, staleCounted, State.modExch, count1_eq_min]

theorem hearPeer_heardFrom (p : Station) (s : State) : hearPeer p (frameCounted s) = heardFrom p s := by
  unfold hearPeer heardFrom
  have rows : (frameCounted s).peers.rows[p] = s.peers.rows[p] := rfl
  rw [rows]
  cases h : s.peers.rows[p] <;>
    simp [State.setRow, State.peerChanged, State.modPeers, withStation, frameCounted, State.absenceFromNow, State.now,
      State.conf]

end Sys2Proof.Machine
end

