-- ==== Sys2Proof/Laws/Port.lean ====
section
/-! SUPPORT. The Shelf Port's bytes and causes: what a field is as a number, what a set of stations and the marked positions
are, and that clearing a cause makes none pending. -/

namespace Sys2Proof.Machine

@[simp] theorem lowByte_toNat (n : Nat) : (lowByte n).toNat = n % 256 := rfl
@[simp] theorem highByte_toNat (n : Nat) : (highByte n).toNat = n / 256 % 256 := rfl
@[simp] theorem twoBytes_eq (n : Nat) : twoBytes n = [highByte n, lowByte n] := rfl

/-- A set of stations is not empty when a station stands in it. -/
theorem anyStation_iff (set : StationSet) : anyStation set = true ↔ ∃ p : Station, set[p] = true := by simp [anyStation]

/-- Bit `n` of a set's two bytes stands for station `n` (11.5). -/
theorem stationBits_testBit (set : StationSet) (n : Nat) :
    (stationBits set).testBit n = true ↔ ∃ p : Station, p.val = n ∧ set[p] = true := by
  have key : ∀ (f : Fin 15 → Bool) (k : Nat) (hk : k ≤ 15),
      (((List.finRange 15).take k).foldl (fun acc i => if f i then acc + 2 ^ i.val else acc) 0 < 2 ^ k) ∧
      ∀ n, (((List.finRange 15).take k).foldl (fun acc i => if f i then acc + 2 ^ i.val else acc) 0).testBit n = true ↔
        ∃ p : Fin 15, p.val = n ∧ n < k ∧ f p = true := by
    intro f k
    induction k with
    | zero => intro _; simp
    | succ k ih =>
      intro hk
      obtain ⟨h1, h2⟩ := ih (by omega)
      rw [List.take_add_one, List.foldl_append, List.getElem?_eq_getElem (by simpa using hk)]
      simp only [List.getElem_finRange, Option.toList_some, List.foldl_cons, List.foldl_nil]
      generalize hx : ((List.finRange 15).take k).foldl (fun acc i => if f i then acc + 2 ^ i.val else acc) 0 = x at *
      set q : Fin 15 := Fin.cast (by simp) (⟨k, by simpa using hk⟩ : Fin (List.finRange 15).length) with hq
      have qv : q.val = k := rfl
      by_cases hf : f q = true
      · simp only [hf, if_true, qv]
        have e : x + 2 ^ k = 2 ^ k ||| x := by have := Nat.two_pow_add_eq_or_of_lt h1 1; simp only [Nat.mul_one] at this; omega
        refine ⟨by rw [Nat.pow_succ]; omega, fun n => ?_⟩
        rw [e, Nat.testBit_or, Nat.testBit_two_pow, Bool.or_eq_true, h2]
        constructor
        · rintro (h | ⟨p, h3, h4, h5⟩)
          · simp at h; exact ⟨q, by omega, by omega, hf⟩
          · exact ⟨p, h3, by omega, h5⟩
        · rintro ⟨p, h3, h4, h5⟩
          by_cases h6 : n = k
          · left; simp [h6]
          · right; exact ⟨p, h3, by omega, h5⟩
      · simp only [hf, Bool.false_eq_true, if_false]
        refine ⟨by rw [Nat.pow_succ]; omega, fun n => ?_⟩
        rw [h2]
        constructor
        · rintro ⟨p, h3, h4, h5⟩; exact ⟨p, h3, by omega, h5⟩
        · rintro ⟨p, h3, h4, h5⟩
          by_cases h6 : n = k
          · have : p = q := by ext; omega
            subst this; exact absurd h5 hf
          · exact ⟨p, h3, by omega, h5⟩
  have := (key (fun i => set[i]) 15 (by omega)).2 n
  rw [List.take_of_length_le (by simp)] at this
  unfold stationBits
  rw [this]
  constructor
  · rintro ⟨p, h, _, h2⟩; exact ⟨p, h, h2⟩
  · rintro ⟨p, h, h2⟩; exact ⟨p, h, by have := p.isLt; omega, h2⟩

@[simp] theorem mem_marked (s : State) (p : Position) : p ∈ marked s ↔ (s.agent p).changed = true := by simp [marked]

theorem marked_nodup (s : State) : (marked s).Nodup := (List.nodup_finRange 48).filter _

/-- Clearing a cause makes no cause pending (R173). -/
theorem causePending_clearCause (cause : Option Cause) (detail : Nat) (s : State) (c : Cause)
    (h : causePending (clearCause cause detail s) c = true) : causePending s c = true := by
  match cause with
  | none | some .loadFault | some .directivesPending | some .agentChange => exact h
  | some .clockLoss =>
    simp only [clearCause] at h
    split at h
    · cases c <;> first | exact h | exact absurd h Bool.false_ne_true
    · exact h
  | some .isolated => cases c <;> first | exact h | exact absurd h Bool.false_ne_true
  | some .peerChange =>
    by_cases peer : c = .peerChange
    · subst peer
      simp only [causePending, anyStation_iff] at h ⊢
      obtain ⟨p, hp⟩ := h
      exact ⟨p, by simp [clearCause, State.modPeers] at hp; exact hp.1⟩
    · cases c <;> first | exact absurd rfl peer | exact h

end Sys2Proof.Machine
end

