-- ==== Sys2Proof/Tests/Slice0.lean ====
section
/-! SUPPORT. Tests of the model: the smoke test of `wellFormed`, the bytes of the Shelf Port and of bus frames written
out from 11.5, one step of each command with its result worked out from the rule named beside it, and for each
obligation with hypotheses a state and operands that meet them (`witness_…`). -/

-- One theorem at a time: each thread that waits for the kernel would reserve memory of its own.
set_option Elab.async false

namespace Sys2Proof.Tests

open Sys2Proof.Machine

/-! ### Small states -/

/-- A group record with middle values of every range. -/
def grp : GroupRec where
  defined := true
  wrapBudget := 30
  extension := 20
  graceLimit := 60
  autoReady := false
  alertTime := 20
  t1 := 30
  t2 := 60
  maxWait := 120
  overflow := none
  wIdle := 8
  wOcc := 4
  initialAht := 180
  ewtAt := (60, 180, 600)
  posAt := (2, 4, 6)
  treatment := 0
  fallback := 1
  divertCode := 77

/-- Group 0 is `grp`, group 1 auto-ready with zero times, group 2 `grp` with a treatment that speaks. -/
def conf : Configuration :=
  { Configuration.absent with
    margin := 2048, windowHalf := 900, offerTimeout := 6, claimTimeout := 6, joinInterval := 30
    brisk := 2, easy := 10, slow := 50, briskHold := 30, easyHold := 300, silence := 0x55
    groups := Vector.ofFn fun g =>
      if g.val = 0 then grp
      else if g.val = 1 then
        { grp with wrapBudget := 0, extension := 0, graceLimit := 0, autoReady := true, t1 := 0, t2 := 0, maxWait := 0 }
      else if g.val = 2 then { grp with wrapBudget := 0, treatment := 1 }
      else GroupRec.absent
    lists := Vector.ofFn fun l =>
      if l.val = 0 then some ⟨[.bed 0 255], 0⟩
      else if l.val = 1 then some ⟨[.say 0, .repeatNext 2, .silence 3, .repeatNext 0, .silence 9,
        .branch .tier [7, 8], .bed 1 10, .nest 2, .endList], 2⟩
      else if l.val = 2 then some ⟨[.repeatNext 1, .branch .visit [1], .endList], 0⟩
      else none
    directory := Vector.ofFn fun c => if c.val < 4 then some ⟨1000, 8000⟩ else none
    playlists := Vector.ofFn fun b => [b.val] }

/-- Station 4, ACTIVE at 1000 ds, with nothing in it. -/
def base : State :=
  { State.reset with
    cfg := some conf, load := ⟨none, 0⟩
    time := { State.reset.time with ds := 1000, running := true }
    bus := { State.reset.bus with station := .active, id := some 4, rng := some 0x5A0E } }

/-- The next state of an outcome. -/
def after (o : Host.Outcome State Fault Refusal) : State :=
  match o with
  | .next t => t
  | .fault _ | .refused _ => State.reset

/-- Position 7 in a state, a member of group 0 with proficiency 9. -/
def agentIn (st : AgentState) (s : State) : State :=
  { s with agents := alter s.agents 7 fun a => { a with state := st, members := [⟨0, 9⟩] } }

/-- Slot 0 with its generation 1 holds the call, which stands in its queue unless it is CONNECTED. -/
def callIn (k : Call) (s : State) : State :=
  { s with
    calls := alter s.calls 0 fun _ => ⟨1, false, some k⟩
    queues := alter s.queues k.group fun q => if k.state = .connected then q else q ++ [0] }

/-- A call of trunk 3 for group 0 in class 2, seized at 900 ds. -/
def call (st : CallState) : Call := ⟨3, 0, 2, 0xBEEF, 900, st, 1, noStations, false, none⟩

/-- The directive queue holds `n` directives. -/
def filled (n : Nat) (s : State) : State := { s with port := { s.port with directives := List.replicate n (.withdraw 1) } }

/-- Station 9 is present with one entry for group 0. -/
def withPeer (e : Entry) (s : State) : State :=
  { s with peers := { s.peers with rows := alter s.peers.rows 9 fun _ => some ⟨1100, some 990, [e]⟩ } }

/-- The station state becomes `st`. -/
def inStation (st : StationState) (s : State) : State := { s with bus := { s.bus with station := st } }

/-- The open transaction becomes `t`. -/
def during (t : Transaction) (s : State) : State := { s with port := { s.port with transaction := t } }

/-- This station's call in slot 0, and a call of station 9. -/
def ours : CallRef := ⟨4, 0, 1⟩
def theirs : CallRef := ⟨9, 5, 2⟩
def onOurs : Binding := ⟨ours, 0, true⟩
def onTheirs : Binding := ⟨theirs, 0, false⟩

def readyS : State := agentIn (.ready 900) base
def claimingS : State := agentIn (.claiming 900) { base with exch := { base.exch with claims := [⟨7, 9, 0, 1000⟩] } }
def wrapS : State := agentIn (.wrap ⟨0, 5, 0⟩ 1000) base
def wrapOverS : State := agentIn (.wrapOver ⟨0, 30, 3⟩ 400) base
def talkingS : State := agentIn (.talking onOurs) (callIn (call .connected) base)
def alertingS : State := agentIn (.alerting 900 onOurs 1000) (callIn (call (.alertingLocal 7)) base)
def remoteS : State := agentIn (.alerting 900 onTheirs 1000) base
def waitingS : State := callIn (call .waiting) base
def offeredS : State := callIn (call (.offered 9 1000 0)) base
def watchedS : State := callIn (call (.alertingRemote 9 11 1000)) base

/-- Reading a fact off an `Option` that is known. -/
theorem of_none {α : Type} {o : Option α} {P : α → Prop} (h : o = none) : ∀ k, o = some k → P k := by
  intro k e; rw [h] at e; cases e

theorem of_some {α : Type} {o : Option α} {a : α} {P : α → Prop} (h : o = some a) (p : P a) : ∀ k, o = some k → P k := by
  intro k e; rw [h] at e; cases e; exact p

theorem idle_takes {s : State} (h : s.outOfService = false) (t : s.port.transaction = .idle) : TakesEvents s :=
  ⟨h, by rw [NoRestart, t]; nofun⟩

theorem base_takes : TakesEvents base := idle_takes (by decide) (by decide)

/-- No slot of `base` holds a call. -/
theorem base_calls : ∀ c, base.callAt c = none := by decide +kernel

/-- Slot 0 of `waitingS` holds the one call. -/
theorem waiting_calls (P : Slot → Call → Prop) (h : P 0 (call .waiting)) : ∀ c k, waitingS.callAt c = some k → P c k := by
  intro c k e
  have := (by decide +kernel : ∀ c, waitingS.callAt c = if c = 0 then some (call .waiting) else none) c
  rw [this] at e
  split at e
  · cases e; subst ‹c = 0›; exact h
  · cases e

/-! ### WellFormed: one ill-formed command for each check -/

theorem test_wf_event_byte : wellFormed (.trunkSeize 3 256 0 ⟨0, 2⟩) = false ∧ wellFormed (.trunkSeize 3 255 255 ⟨0, 2⟩) = true := by decide
theorem test_wf_login : wellFormed (.agentLogin 7 ⟨[(0, 256)], 1⟩) = false ∧ wellFormed (.agentLogin 256 ⟨[], 1⟩) = false := by decide
theorem test_wf_position : wellFormed (.agentReady ⟨256, 1⟩) = false ∧ wellFormed (.agentNotReady 7 ⟨256, 1⟩) = false := by decide
theorem test_wf_event_kind : wellFormed (.unknownEventKind ⟨12, 1⟩) = false ∧ wellFormed (.unknownEventKind ⟨256, 1⟩) = false := by decide
theorem test_wf_report : wellFormed (.reportAgent 48 0 .opens) = false ∧ wellFormed (.reportGroup 16 0 .opens) = false ∧
    wellFormed (.reportStation 256 .opens) = false ∧ wellFormed (.reportUnknownKind 1 47 0 .opens) = false ∧
    wellFormed (.reportUnknownKind 2 15 0 .opens) = false ∧ wellFormed (.reportUnknownKind 3 0 0 .opens) = false := by decide
theorem test_wf_command : wellFormed (.unknownCommand 5 0) = false ∧ wellFormed (.unknownCommand 256 0) = false := by decide
theorem test_wf_header : wellFormed (.cancel ⟨16, 0⟩ ⟨0, 0, 0⟩) = false ∧ wellFormed (.cancel ⟨0, 16⟩ ⟨0, 0, 0⟩) = false := by decide
theorem test_wf_ref : wellFormed (.cancel ⟨9, 4⟩ ⟨16, 0, 0⟩) = false ∧ wellFormed (.cancel ⟨9, 4⟩ ⟨0, 256, 0⟩) = false ∧
    wellFormed (.cancel ⟨9, 4⟩ ⟨0, 0, 16⟩) = false := by decide
theorem test_wf_summary : wellFormed (.summary ⟨9, 15⟩ [⟨0, 0, 65536, 0, 0⟩]) = false ∧
    wellFormed (.summary ⟨9, 15⟩ [⟨256, 0, 0, 0, 0⟩]) = false := by decide
theorem test_wf_fields : wellFormed (.offer ⟨9, 4⟩ ⟨9, 5, 2⟩ 0 256 0 0 0) = false ∧
    wellFormed (.claim ⟨9, 4⟩ 0 9 11 65536) = false ∧ wellFormed (.accept ⟨9, 4⟩ ⟨4, 0, 1⟩ 256 0) = false ∧
    wellFormed (.decline ⟨9, 4⟩ ⟨4, 0, 1⟩ 256) = false ∧ wellFormed (.answered ⟨9, 4⟩ ⟨4, 0, 1⟩ 256) = false ∧
    wellFormed (.nocall ⟨9, 4⟩ 256 0) = false := by decide
theorem test_wf_no_bytes : wellFormed (.frameCheckError []) = false := by decide

/-! ### Bytes written out from 11.5 -/

/-- The table gives no row any bits. -/
theorem test_table_word : decodeTableWord 8 1 = none ∧ base.withFetchWord 8 1 = base := ⟨rfl, rfl⟩

/-- EVENT, TRUNK_SEIZE, trunk 0x21, group 3, priority 2, tag 0xBEEF. -/
theorem test_bytes_seize : shelfCommand [1, 1, 0x21, 3, 2, 0xBE, 0xEF] 2 true = .trunkSeize 0x21 3 2 ⟨0xBEEF, 2⟩ := by decide
/-- EVENT, AGENT_LOGIN, position 7, two entries. -/
theorem test_bytes_login : shelfCommand [1, 4, 7, 2, 0, 9, 1, 5] 1 true = .agentLogin 7 ⟨[(0, 9), (1, 5)], 1⟩ := by decide
/-- EVENT, AGENT_NOT_READY, position 7, reason 13; and RESTART with its outcome clocked out. -/
theorem test_bytes_events : shelfCommand [1, 7, 7, 13] 1 true = .agentNotReady 7 ⟨13, 1⟩ ∧
    shelfCommand [1, 12] 1 false = .restart (.through 1 false) ∧ shelfCommand [1, 13] 1 true = .unknownEventKind ⟨13, 1⟩ := by decide
/-- REPORT AGENT of position 7 from field 3; TAKE, ATTENTION and CHANGES are one byte. -/
theorem test_bytes_others : shelfCommand [3, 1, 7, 3] 2 true = .reportAgent 7 3 (.through 2) ∧
    shelfCommand [2] 1 true = .take (.through 1) ∧ shelfCommand [4] 1 true = .attention (.through 1) ∧
    shelfCommand [5] 1 true = .changes (.through 1) ∧ shelfCommand [0x40] 3 true = .unknownCommand 0x40 3 := by decide

/-- A DECLINE NO_ROOM of station 9 to station 4: SYNC, kind 5, both IDs, LEN 3, reference (4, 1, 0), reason 3, CHECK. -/
theorem test_bytes_decline : receiveBytes [0x5D, 5, 0x94, 3, 0x41, 0, 3, 5 ^^^ 0x94 ^^^ 3 ^^^ 0x41 ^^^ 0 ^^^ 3] =
    some ⟨9, 4, .decline ours .noRoom⟩ := by decide +kernel
/-- A SUMMARY of one entry: group 2, 3 ready, best 0x1234, 4 waiting, age 0x0102. -/
theorem test_bytes_summary : receiveBytes [0x5D, 1, 0x9F, 8, 1, 2, 3, 0x12, 0x34, 4, 1, 2,
    1 ^^^ 0x9F ^^^ 8 ^^^ 1 ^^^ 2 ^^^ 3 ^^^ 0x12 ^^^ 0x34 ^^^ 4 ^^^ 1 ^^^ 2] =
    some ⟨9, 15, .summary [⟨2, 3, 0x1234, 4, 0x0102⟩]⟩ := by decide +kernel
/-- A wrong CHECK is no frame. -/
theorem test_bytes_check : receiveBytes [0x5D, 9, 0x94, 2, 0, 7, 0] = none := by decide +kernel

/-- R117: SYNC is a start bit, 1 0 1 1 1 0 1 0 from the least significant bit up, and a stop bit. -/
theorem test_levels_sync : byteLevels 0x5D = [.dominant, .recessive, .dominant, .recessive, .recessive, .recessive, .dominant,
    .recessive, .dominant, .recessive] := by decide
/-- R117: of 0xFF and 0xFE sent at once, the station that sends 0xFF reads dominant at its first data bit. -/
theorem test_levels_pair : pairAt [byteLevels 0xFF, byteLevels 0xFE] 1 = .dominant ∧
    collidesAt [byteLevels 0xFF, byteLevels 0xFE] (byteLevels 0xFF) 1 ∧
    ¬ collidesAt [byteLevels 0xFF, byteLevels 0xFE] (byteLevels 0xFE) 1 := by unfold collidesAt; decide
/-- R178 code 13: an absent clip whose start address lies beyond a memory of 64 KiB. -/
theorem test_clip_absent : clipFault (List.replicate 6 0 ++ [1] ++ List.replicate 2506 0 ++ [2, 0, 0]) 0 = true := by
  decide +kernel

/-! ### One step of each command -/

/-- The state with station time at `n`. -/
def atTime (n : Nat) (s : State) : State := { s with time := { s.time with ds := n } }

/-- Slot 0's call with its tier, divert mark or context changed. -/
def callWith (f : Call → Call) : State := callIn (f (call .waiting)) base

/-- A context on the bed step of list 0, with its deadline at 1000 ds. -/
def onBed : Context := ⟨0, 0, none, none, .bed 0, some 1000, none, 0, 0, false⟩

/-- Voice stream 4 plays clip 0 with two samples in its FIFO. -/
def streamS : State :=
  { base with clips := { base.clips with
      frameCursor := 0
      streams := alter base.clips.streams 4 fun _ => ⟨some ⟨0, none, 1002, 0, 2⟩, [7, 8], true, 0, 3⟩ } }

/-- A reply to station 9 is in hand, and on the line. -/
def queuedS : State := State.reply base 9 (.cancel theirs)
def sendingS : State := after (exec (.busAttempt 0) queuedS)

/-- R181. -/
theorem test_powerOn : exec (.powerOn false) base = .next (State.resetWith false) := rfl
/-- R166: the reset follows the outcome byte. -/
theorem test_restart : (after (exec (.restart (.through 1 false)) base)).bus.station = .starting ∧
    (after (exec (.restart (.through 1 false)) base)).port.out = [0] ∧
    (after (exec (.restart (.through 1 false)) base)).time.syncPresent = false := by decide +kernel
/-- R177: a header without the magic ends the load with code 1. -/
theorem test_load_magic : (after (exec (.loadReadArrives (Vector.replicate 32 0)) State.reset)).port.loadFault = some 1 := by
  decide +kernel
/-- R31, R32, R68: TAKEN and slot 0; LISTEN, then ROUTE and ALERT to the ready agent. -/
theorem test_seize : (after (exec (.trunkSeize 3 0 2 ⟨0xBEEF, 2⟩) readyS)).port.out = [0, 0] ∧
    (after (exec (.trunkSeize 3 0 2 ⟨0xBEEF, 2⟩) readyS)).port.directives =
      [.listen 3 0, .route 3 4 7, .alert 7 4 0xBEEF] := by decide +kernel
/-- R165, R166: a rise of select cuts the outcome or the slot short; zero bytes follow the slot. -/
theorem test_cut_short : (after (exec (.trunkSeize 3 0 2 ⟨0xBEEF, 1⟩) readyS)).port.out = [0] ∧
    (after (exec (.agentReady ⟨48, 0⟩) readyS)).port.out = [] ∧ (after (exec (.agentReady ⟨48, 3⟩) readyS)).port.out = [2, 0, 0] := by
  decide +kernel
/-- R33, R14, R34. -/
theorem test_answered_trunk : (after (exec (.trunkAnswered ⟨3, 1⟩) alertingS)).callAt 0 =
      some { call .connected with declined := noStations } ∧
    ((after (exec (.trunkAnswered ⟨3, 1⟩) alertingS)).agent 7).state = .talking onOurs ∧
    (after (exec (.trunkAnswered ⟨3, 1⟩) alertingS)).counts[0].answeredLocal = 1 := by decide +kernel
/-- R35: the alerting agent is withdrawn and is READY with ready_since kept. -/
theorem test_release : (after (exec (.trunkRelease ⟨3, 1⟩) alertingS)).port.directives = [.withdraw 7] ∧
    ((after (exec (.trunkRelease ⟨3, 1⟩) alertingS)).agent 7).state = .ready 900 ∧
    (after (exec (.trunkRelease ⟨3, 1⟩) alertingS)).slotRec 0 = ⟨1, false, none⟩ := by decide +kernel
/-- R5. -/
theorem test_login : (after (exec (.agentLogin 7 ⟨[(0, 9)], 1⟩) base)).agent 7 =
    { Agent.reset with state := .notReady 0, members := [⟨0, 9⟩], changed := true } := by decide +kernel
/-- R12, R55: the wrap of 5 s is completed: (7·180 + 5 + 4) / 8 = 158. -/
theorem test_logout : ((after (exec (.agentLogout ⟨7, 1⟩) wrapS)).agent 7).state = .loggedOut ∧
    (after (exec (.agentLogout ⟨7, 1⟩) wrapS)).aht[0] = 158 := by decide +kernel
/-- R6. -/
theorem test_ready : ((after (exec (.agentReady ⟨7, 1⟩) (agentIn (.notReady 14) base))).agent 7).state = .ready 1000 := by decide +kernel
/-- R7, R40: the alert ends as a RONA with the given reason. -/
theorem test_notReady : ((after (exec (.agentNotReady 7 ⟨3, 1⟩) alertingS)).agent 7).state = .notReady 3 ∧
    (after (exec (.agentNotReady 7 ⟨3, 1⟩) alertingS)).port.directives = [.withdraw 7, .unroute 3] ∧
    (after (exec (.agentNotReady 7 ⟨3, 1⟩) alertingS)).counts[0].ronaReturns = 1 := by decide +kernel
/-- R8, R155: a remote answer is reported to the call's home. -/
theorem test_answer : (after (exec (.agentAnswer ⟨7, 1⟩) remoteS)).bus.replies = [⟨9, .answered theirs 7⟩] ∧
    ((after (exec (.agentAnswer ⟨7, 1⟩) remoteS)).agent 7).state = .talking onTheirs := by decide +kernel
/-- The alert of position 7 has waited for two entries and stands before a divert of trunk 5 that needs the one free. -/
def handingS : State := filled 31 { alertingS with
  calls := alter alertingS.calls 1 fun _ => ⟨1, false, some { call .waiting with trunk := 5, divertPending := true }⟩
  queues := alter alertingS.queues 0 fun q => q ++ [1]
  port := { alertingS.port with waits := [.rona 7, .divert 1] } }

/-- R169: an answer at the agent's key or at the trunk takes the RONA off the list, and the divert fits. -/
theorem test_waiterServed : handingS.free = 1 ∧
    (∀ c ∈ [Instr.agentAnswer ⟨7, 1⟩, .trunkAnswered ⟨3, 1⟩],
      (after (exec c handingS)).port.waits = [] ∧ (after (exec c handingS)).callAt 1 = none ∧
      (after (exec c handingS)).port.directives.getLast? = some (.divert 5 77) ∧
      (after (exec c handingS)).port.out = [0]) := by decide +kernel
/-- R9: 30 s of wrap from 1000 ds. -/
theorem test_clear : ((after (exec (.agentClear ⟨7, 1⟩) talkingS)).agent 7).state = .wrap ⟨0, 0, 0⟩ 1300 := by decide +kernel
/-- R10. -/
theorem test_wrapDone : ((after (exec (.wrapDone ⟨7, 1⟩) wrapS)).agent 7).state = .ready 1000 := by decide +kernel
/-- R11: 20 s from now, the overrun seconds kept. -/
theorem test_wrapExtend : ((after (exec (.wrapExtend ⟨7, 1⟩) wrapOverS)).agent 7).state = .wrap ⟨0, 30, 3⟩ 1200 ∧
    (after (exec (.wrapExtend ⟨7, 1⟩) (after (exec (.wrapExtend ⟨7, 1⟩) wrapOverS)))).port.out = [1] := by decide +kernel
/-- R166: REFUSED_RANGE. -/
theorem test_unknownEvent : (after (exec (.unknownEventKind ⟨13, 1⟩) base)).port.out = [2] := by decide +kernel
/-- R168: WITHDRAW of position 1, then zero bytes. -/
theorem test_take : (after (exec (.take (.through 2)) (filled 2 base))).port.out = [5, 1, 0] ∧
    (after (exec (.take (.through 2)) (filled 2 base))).port.directives = [.withdraw 1] := by decide +kernel
/-- R24: READY, no reason, no call, idle for 10 s. -/
theorem test_reportAgent : (after (exec (.reportAgent 7 0 (.through 4)) readyS)).port.out = [2, 0, 255, 255, 0, 10] := by
  decide +kernel
/-- R171: one waiting, one at tier 1, 10 s old, none ready. -/
theorem test_reportGroup : (after (exec (.reportGroup 0 0 (.through 4)) waitingS)).port.out = [1, 1, 0, 10, 0] := by decide +kernel
/-- R171: ACTIVE, no cause, no peer. -/
theorem test_reportStation : (after (exec (.reportStation 0 (.through 3)) base)).port.out = [3, 0, 0, 0] := by decide +kernel
/-- R170. -/
theorem test_reportUnknown : (after (exec (.reportUnknownKind 9 0 0 (.through 3)) base)).port.out = [0, 0, 0] := by decide +kernel
/-- R173: DIRECTIVES_PENDING and their number. -/
theorem test_attention : (after (exec (.attention (.through 1)) (filled 2 base))).port.out = [5, 0, 2] := by decide +kernel
/-- R174. -/
theorem test_changes : (after (exec (.changes (.through 2)) (after (exec (.agentLogin 7 ⟨[(0, 9)], 1⟩) base)))).port.out = [1, 7] ∧
    marked (after (exec (.changes (.through 2)) (after (exec (.agentLogin 7 ⟨[(0, 9)], 1⟩) base)))) = [] := by decide +kernel
/-- R165. -/
theorem test_unknownCommand : (after (exec (.unknownCommand 6 2) base)).port.out = [0, 0] := by decide +kernel
/-- R168: a rise before the last bit leaves the directive. -/
theorem test_abort : (after (exec .transactionAbort (during (.take (some (.withdraw 1)) false) (filled 2 base)))).port.directives =
    [.withdraw 1, .withdraw 1] := by decide +kernel
/-- R113: the 800th frame. -/
theorem test_highwayFrame : (after (exec .highwayFrame { base with time := { base.time with frames := 799 } })).time =
    { base.time with dsDue := 1 } := by decide +kernel
/-- R114. -/
theorem test_fallbackFrame : (after (exec .fallbackFrame (after (exec .syncLost base)))).time.frames = 1 ∧
    (after (exec .fallbackFrame base)).time.frames = 0 := by decide +kernel
/-- R113: 1010 ds is a second boundary. -/
theorem test_decisecond : (after (exec .decisecond { base with time := { base.time with ds := 1009, dsDue := 1 } })).time =
    { base.time with ds := 1010, secondsDue := 1 } := by decide +kernel
/-- R21: one overrun second, one of debt. -/
theorem test_second : ((after (exec .secondBoundary { wrapOverS with time := { base.time with secondsDue := 1 } })).agent 7).state =
      .wrapOver ⟨0, 30, 4⟩ 400 ∧
    ((after (exec .secondBoundary { wrapOverS with time := { base.time with secondsDue := 1 } })).agent 7).debtCur = 1 := by
  decide +kernel
/-- R22: the last second of a half belongs to that half. -/
theorem test_windowHalf : let s := { wrapS with time := { base.time with secondsDue := 1, windowCount := 899 } }
    ((after (exec .windowHalfBoundary s)).agent 7).busyPrev = 1 ∧
    ((after (exec .windowHalfBoundary s)).agent 7).busyCur = 0 ∧ (after (exec .windowHalfBoundary s)).time.windowCount = 0 := by
  decide +kernel
/-- R114, R112. -/
theorem test_syncLost : (after (exec .syncLost base)).time.clockLoss = true ∧ (after (exec .syncLost base)).highway[0] = none := by
  decide +kernel
/-- R115: the returning sync is the next frame, and the flag stays. -/
theorem test_syncReturns : (after (exec .syncReturns (after (exec .syncLost base)))).time =
    { base.time with frames := 1, clockLoss := true } := by decide +kernel
/-- R110: the oldest sample is output on slot 4. -/
theorem test_stream : (after (exec (.streamFrameOutput 4) streamS)).highway[4] = some 7 ∧
    ((after (exec (.streamFrameOutput 4) streamS)).stream 4).fifo = [8] := by decide +kernel
/-- R108: a read of an epoch that has ended is discarded. -/
theorem test_readArrives : ((after (exec (.readArrives (Vector.replicate 32 9))
      { streamS with clips := { streamS.clips with inFlight := some ⟨4, 3, 1000, 2⟩ } })).stream 4).fifo = [7, 8, 9, 9] ∧
    ((after (exec (.readArrives (Vector.replicate 32 9))
      { streamS with clips := { streamS.clips with inFlight := some ⟨4, 2, 1000, 2⟩ } })).stream 4).fifo = [7, 8] := by
  decide +kernel
/-- R16: RETURNED to the call's home. -/
theorem test_alertDeadline : ((after (exec (.alertDeadline 7) remoteS)).agent 7).state = .notReady 15 ∧
    (after (exec (.alertDeadline 7) remoteS)).bus.replies = [⟨9, .returned theirs 7⟩] := by decide +kernel
/-- R16, R169: one free entry is not enough for a local binding. -/
theorem test_rona : (after (exec (.alertDeadline 7) (filled 31 alertingS))).port.waits = [.rona 7] ∧
    ((after (exec (.rona 7) alertingS)).agent 7).state = .notReady 15 := by decide +kernel
/-- R18. -/
theorem test_wrapExpiry : ((after (exec (.wrapExpiry 7) wrapS)).agent 7).state = .wrapOver ⟨0, 5, 0⟩ 1000 := by decide +kernel
/-- R19: 400 ds and 60 s. -/
theorem test_grace : ((after (exec (.graceDeadline 7) wrapOverS)).agent 7).state = .notReady 14 ∧
    ((after (exec (.graceDeadline 7) (atTime 999 wrapOverS))).agent 7).state = .wrapOver ⟨0, 30, 3⟩ 400 := by decide +kernel
/-- R41: tier 2 at 900 ds and 60 s. -/
theorem test_tier : ((after (exec (.tierDeadline 0 .two) (atTime 1500 waitingS))).callAt 0).map Call.tier = some 2 ∧
    ((after (exec (.tierDeadline 0 .two) (atTime 1499 waitingS))).callAt 0).map Call.tier = some 1 := by decide +kernel
/-- R43, R44: 900 ds and 120 s. -/
theorem test_maxWait : (after (exec (.maxWaitDeadline 0) (atTime 2100 waitingS))).port.directives = [.divert 3 77] ∧
    (after (exec (.maxWaitDeadline 0) (atTime 2100 waitingS))).slotRec 0 = ⟨1, false, none⟩ := by decide +kernel
/-- R44. -/
theorem test_divert : (after (exec (.divert 0) (callWith fun k => { k with divertPending := true }))).counts[0].diverted = 1 := by
  decide +kernel
/-- R77: the deferred agent takes the waiting call. -/
theorem test_retryPass : (after (exec .retryPass
      { waitingS with agents := alter readyS.agents 7 fun a => { a with deferred := true } })).port.directives =
    [.route 3 4 7, .alert 7 4 0xBEEF] := by decide +kernel
/-- R97: the END of list 0 starts the bed again. -/
theorem test_stepDeadline : ((after (exec (.stepDeadline 0) (callWith fun k => { k with context := some onBed }))).contextAt 0) =
    some { onBed with deadline := some 3550, visits := 1 } := by decide +kernel
/-- R98: the held call of list 0 is placed on its bed. -/
theorem test_resume : (after (exec .treatmentResume (let s := callWith fun k =>
      { k with context := some { onBed with heard := .nothing, deadline := none, held := true } }
    { s with treat := { s.treat with holdList := [0] } }))).port.directives = [.listen 3 0] := by decide +kernel
/-- R119, R122: a CANCEL of station 4 to station 9: SYNC, kind 6, both IDs, LEN 2, reference (9, 2, 5), CHECK. -/
theorem test_busAttempt : sendingS.bus.line = some ⟨4, 9, .cancel theirs⟩ ∧
    sendingS.lineBytes = [0x5D, 6, 0x49, 2, 0x92, 5, 6 ^^^ 0x49 ^^^ 2 ^^^ 0x92 ^^^ 5] := by decide +kernel
/-- R119, R127. -/
theorem test_frameSent : (after (exec .frameSent sendingS)).bus.framesSent = 1 ∧
    (after (exec .frameSent sendingS)).bus.replies = [] := by decide +kernel
/-- R121: 0x5A0E moves to 0xB41D; modulo 2 it gives one slot. -/
theorem test_collision : (after (exec .collision sendingS)).bus.rng = some 0xB41D ∧
    (after (exec .collision sendingS)).bus.backoff = some 1 := by decide +kernel
/-- R123. -/
theorem test_checkError : (after (exec (.frameCheckError [0x5D]) base)).bus.checkErrors = 1 := by decide +kernel
/-- R136: an entry with no agent ready is held with best 0. -/
theorem test_summary : (after (exec (.summary ⟨9, 15⟩ [⟨0, 0, 500, 2, 30⟩]) base)).peers.rows[9] =
    some ⟨1150, some 1000, [⟨0, 0, 0, 2, 30⟩]⟩ := by decide +kernel
/-- R153, R52: 9·2048 + 10·8/8 + 1000·4/16 = 18692. -/
theorem test_offer : (after (exec (.offer ⟨9, 4⟩ ⟨9, 5, 2⟩ 0 2 1 0xBEEF 10) readyS)).bus.replies =
      [⟨9, .accept theirs 7 18692⟩] ∧
    (after (exec (.offer ⟨9, 4⟩ ⟨9, 5, 2⟩ 0 2 1 0xBEEF 10) readyS)).port.directives = [.alert 7 9 0xBEEF] := by decide +kernel
/-- R161, R149: the call, 10 s old, is offered to the claimant. -/
theorem test_claim : (after (exec (.claim ⟨9, 4⟩ 0 9 11 1) waitingS)).bus.ordinary =
    [⟨9, .offer ours 0 2 1 0xBEEF 10⟩] := by decide +kernel
/-- R150, R39: 20 s and 2 s more. -/
theorem test_accept : ((after (exec (.accept ⟨9, 4⟩ ⟨4, 0, 1⟩ 11 5) offeredS)).callAt 0).map Call.state =
      some (.alertingRemote 9 11 1220) ∧
    (after (exec (.accept ⟨9, 4⟩ ⟨4, 0, 1⟩ 11 5) offeredS)).port.directives = [.route 3 9 11] := by decide +kernel
/-- R151, R40. -/
theorem test_decline : (after (exec (.decline ⟨9, 4⟩ ⟨4, 0, 1⟩ 3) offeredS)).callAt 0 =
    some { call .waiting with declined := withStation noStations 9 } := by decide +kernel
/-- R159. -/
theorem test_cancel : ((after (exec (.cancel ⟨9, 4⟩ ⟨9, 5, 2⟩) remoteS)).agent 7).state = .ready 900 ∧
    (after (exec (.cancel ⟨9, 4⟩ ⟨9, 5, 2⟩) remoteS)).port.directives = [.withdraw 7] := by decide +kernel
/-- R156; from another position it is stale. -/
theorem test_answered : ((after (exec (.answered ⟨9, 4⟩ ⟨4, 0, 1⟩ 11) watchedS)).callAt 0).map Call.state = some .connected ∧
    (after (exec (.answered ⟨9, 4⟩ ⟨4, 0, 1⟩ 12) watchedS)).exch.stale = 1 := by decide +kernel
/-- R157. -/
theorem test_returned : (after (exec (.returned ⟨9, 4⟩ ⟨4, 0, 1⟩ 11) watchedS)).port.directives = [.unroute 3] ∧
    (after (exec (.returned ⟨9, 4⟩ ⟨4, 0, 1⟩ 11) watchedS)).counts[0].ronaReturns = 1 := by decide +kernel
/-- R162. -/
theorem test_nocall : ((after (exec (.nocall ⟨9, 4⟩ 0 7) claimingS)).agent 7).state = .ready 900 ∧
    (after (exec (.nocall ⟨9, 4⟩ 0 7) claimingS)).exch.claims = [] := by decide +kernel
/-- R152. -/
theorem test_offerDeadline : (after (exec (.offerDeadline 0) offeredS)).callAt 0 =
    some { call .waiting with declined := withStation noStations 9 } := by decide +kernel
/-- R158. -/
theorem test_answerWatch : (after (exec (.answerWatchExpiry 0) watchedS)).port.directives = [.unroute 3] ∧
    (after (exec (.answerWatchExpiry 0) watchedS)).bus.replies = [⟨9, .cancel ours⟩] := by decide +kernel
/-- R163. -/
theorem test_claimDeadline : ((after (exec (.claimDeadline 7) claimingS)).agent 7).state = .ready 900 := by decide +kernel
/-- R130. -/
theorem test_join : (after (exec .joinDeadline (inStation (.joining 1000) base))).bus.station = .active ∧
    (after (exec .joinDeadline (inStation (.joining 1001) base))).bus.station = .joining 1001 := by decide +kernel
/-- R131: the probe, and the next deadline a SLOW period on. -/
theorem test_probe : (after (exec .probeDeadline (inStation (.busFault 1000) base))).bus.slot = some [] ∧
    (after (exec .probeDeadline (inStation (.busFault 1000) base))).bus.station = .busFault 1050 := by decide +kernel
/-- R137. -/
theorem test_absence : (after (exec (.absenceDeadline 9) (atTime 1100 (withPeer ⟨0, 1, 9, 0, 0⟩ base)))).peers =
    { base.peers with changed := withStation noStations 9 } := by decide +kernel
/-- R145 step 1. -/
theorem test_hold : (after (exec .holdDeadline { base with builder := ⟨.brisk, some 1001, some 1000, some 999, none⟩ })).builder =
    ⟨.easy, some 1009, some 1300, some 999, none⟩ := by decide +kernel
/-- R145 step 3. -/
theorem test_period : (after (exec .periodDeadline { base with builder := ⟨.brisk, some 1000, some 1010, some 998, none⟩ })).builder =
    ⟨.brisk, some 1002, some 1010, some 1000, none⟩ := by decide +kernel
/-- R175. -/
theorem test_pulseEnd : (after (exec .attentionPulseEnd { base with port := { base.port with pulse := true } })).port.pulse = false := by
  decide +kernel

/-! ### Witnesses: states and operands that meet the hypotheses of the obligations, clause by clause -/

theorem base_noRestart : NoRestart base := base_takes.2

theorem reset_noRestart : NoRestart State.reset := by rw [NoRestart]; decide

theorem witness_StepTakesTheFrontCommand : base.pending = [] := rfl

theorem witness_RestartIsTheSameReset : (during (.restart (some false)) base).port.transaction = .restart (some false) ∧ NoRestart base ∧
    (during (.restart none) base).port.transaction = .restart none := ⟨rfl, base_noRestart, rfl⟩

theorem witness_SelectRiseEndsTheTransaction : NoRestart base ∧ NoRestart (during (.restart none) base) :=
  ⟨base_noRestart, by rw [NoRestart]; decide⟩

/-- A load that has read `got`, with the running sum `sum`. -/
def loading (got : List Byte) (sum : Nat) : State := { State.reset with load := ⟨some (got, sum), 0⟩ }

/-- The first eight bytes of an image of 3317 bytes for station 4 in a memory of 64 KiB. -/
def header : List Byte := [0x53, 0x44, 0x0C, 0xF5, 0, 0, 1, 4]

/-- An image of sixteen bytes, too short for a header that passes, of a station ID of 15. -/
def short : List Byte := [0, 0, 0, 16, 0, 0, 1, 15]

/-- A read of zeros. -/
def zeros : Vector Byte 32 := Vector.replicate 32 0

/-- The header with the magic wrong, the header taken, a read in the middle, the sum wrong, the station ID wrong. -/
theorem witness_LoadReadsTheImage :
    ((loading [] 0).load.reading = some ([], 0) ∧ ([] ++ zeros.toList.take (readLength [])).length = 8 ∧
      headerFault ([] ++ zeros.toList.take (readLength [])) = some 1) ∧
    (header.length = 8 ∧ headerFault header = none ∧
      header = [] ++ (Vector.ofFn fun i : Fin 32 => header.getD i.val 0).toList.take (readLength [])) ∧
    ((header ++ zeros.toList.take (readLength header)).length = 40 ∧ imageLength (header ++ zeros.toList) = 3317) ∧
    ((short ++ zeros.toList.take (readLength short)).length = imageLength short ∧ imageLength short = 16 ∧
      addToSum short.length 1 (zeros.toList.take (readLength short)) ≠ 0) ∧
    addToSum short.length 0 (zeros.toList.take (readLength short)) = 0 ∧
    structuralFault (short ++ zeros.toList.take (readLength short)) = some 4 ∧
    (headerFault [0x53, 0x44, 0x0C, 0xF4, 0, 0, 1, 4] = some 2 ∧ headerFault [0x53, 0x45, 0x0C, 0xF5, 0, 0, 1, 4] = some 1 ∧
      headerFault [0x53, 0x44, 0xFF, 0xFF, 0, 0, 1, 4] = none) := by decide +kernel

/-- A group record that is not defined, with thresholds in order. -/
def blankGroup : List Byte :=
  List.replicate 8 0 ++ [20] ++ List.replicate 9 0 ++ [0, 180, 0, 1, 0, 2, 0, 3, 0, 1, 0, 2, 0, 3, 0, 0, 0]

/-- An image of one silent step, one clip of 100 samples at address 0x1000 and no defined group, in a memory of 64 KiB,
but for its last read. -/
def most : List Byte :=
  [0x53, 0x44, 0x0C, 0xF5, 0x5D, 0x55, 1, 4,
    0x12, 0x34, 8, 0, 3, 0x84, 6, 6, 30, 0, 2, 0, 10, 0, 50, 0, 30, 1, 0x2C, 0, 0x55, 8, 0] ++
  ((List.replicate 16 blankGroup).flatten ++ ([0, 0, 1, 0] ++ (List.replicate 124 0 ++ ([0, 1, 4, 5] ++
  (List.replicate 1790 0 ++ ([0, 0x10, 0, 0, 0, 100] ++ (List.replicate 762 0 ++
  ([1, 0, 0, 0, 0, 0, 0, 0, 0] ++ ([1, 0, 0, 0, 0, 0, 0, 0, 0] ++ [1, 0, 0, 0, 0])))))))))

/-- The last thirteen bytes. -/
def last : List Byte := [0, 0, 0, 0, 1, 0, 0, 0, 0, 0, 0, 0, 0]

/-- The last read of the image. -/
def lastRead : Vector Byte 32 := Vector.ofFn fun i => last.getD i.val 0

theorem u8_append (a b : List Byte) (n : Nat) : u8 (a ++ b) n = if n < a.length then u8 a n else u8 b (n - a.length) := by
  simp only [u8, List.headD_eq_head?_getD, List.head?_drop, List.getElem?_append]
  split <;> rfl

theorem u8_zeros (k n : Nat) : u8 (List.replicate k 0) n = 0 := by
  simp only [u8, List.headD_eq_head?_getD, List.head?_drop, List.getElem?_replicate]
  split <;> rfl

theorem blank_length : blankGroup.length = 35 := by decide

theorem groups_length (k : Nat) : (List.replicate k blankGroup).flatten.length = 35 * k := by
  simp [blank_length, Nat.mul_comm]

theorem u8_groups (k n : Nat) (h : n < 35 * k) : u8 (List.replicate k blankGroup).flatten n = u8 blankGroup (n % 35) := by
  induction k generalizing n with
  | zero => omega
  | succ k ih =>
    rw [List.replicate_succ, List.flatten_cons, u8_append, blank_length]
    split
    · rw [Nat.mod_eq_of_lt ‹_›]
    · rw [ih _ (by omega), ← Nat.mod_eq_sub_mod (by omega)]

/-- The first 31 bytes: header and station block. -/
def first : List Byte :=
  [0x53, 0x44, 0x0C, 0xF5, 0x5D, 0x55, 1, 4,
    0x12, 0x34, 8, 0, 3, 0x84, 6, 6, 30, 0, 2, 0, 10, 0, 50, 0, 30, 1, 0x2C, 0, 0x55, 8, 0]

/-- The image byte by byte: the first bytes, the groups, the lists, the steps, the directory and the playlists. -/
def byteAt (n : Nat) : Nat :=
  if n < 31 then u8 first n else if n - 31 < 560 then u8 blankGroup ((n - 31) % 35)
  else if n - 31 - 560 < 4 then if n - 31 - 560 = 2 then 1 else 0
  else if n - 31 - 560 - 4 < 124 then 0
  else if n - 31 - 560 - 4 - 124 < 4 then
    if n - 31 - 560 - 4 - 124 = 1 then 1 else if n - 31 - 560 - 4 - 124 = 2 then 4
    else if n - 31 - 560 - 4 - 124 = 3 then 5 else 0
  else if n - 31 - 560 - 4 - 124 - 4 < 1790 then 0
  else if n - 31 - 560 - 4 - 124 - 4 - 1790 < 6 then
    if n - 31 - 560 - 4 - 124 - 4 - 1790 = 1 then 16 else if n - 31 - 560 - 4 - 124 - 4 - 1790 = 5 then 100 else 0
  else if n - 31 - 560 - 4 - 124 - 4 - 1790 - 6 < 762 then 0
  else if n = 3281 ∨ n = 3290 ∨ n = 3299 ∨ n = 3308 then 1 else 0

theorem u8_list (n : Nat) : u8 [0, 0, 1, 0] n = if n = 2 then 1 else 0 := by
  rcases n with _|_|_|_|n <;> first | rfl | simp [u8]

theorem u8_step (n : Nat) : u8 [0, 1, 4, 5] n = if n = 1 then 1 else if n = 2 then 4 else if n = 3 then 5 else 0 := by
  rcases n with _|_|_|_|n <;> first | rfl | simp [u8]

theorem u8_clip (n : Nat) : u8 [0, 0x10, 0, 0, 0, 100] n = if n = 1 then 16 else if n = 5 then 100 else 0 := by
  rcases n with _|_|_|_|_|_|n <;> first | rfl | simp [u8]

theorem u8_play (n : Nat) : u8 [1, 0, 0, 0, 0, 0, 0, 0, 0] n = if n = 0 then 1 else 0 := by
  rcases n with _|_|_|_|_|_|_|_|_|n <;> first | rfl | simp [u8]

theorem u8_cut (n : Nat) : u8 [1, 0, 0, 0, 0] n = if n = 0 then 1 else 0 := by
  rcases n with _|_|_|_|_|n <;> first | rfl | simp [u8]

theorem u8_last (n : Nat) : u8 last n = if n = 4 then 1 else 0 := by
  rcases n with _|_|_|_|_|_|_|_|_|_|_|_|_|n <;> first | rfl | simp [u8, last]

theorem u8_image (n : Nat) : u8 (most ++ last) n = byteAt n := by
  rw [byteAt]
  simp only [most, List.append_assoc, u8_append, groups_length, List.length_replicate, List.length_cons, List.length_nil,
    u8_zeros, u8_list, u8_step, u8_clip, u8_play, u8_cut, u8_last, Nat.reduceAdd, Nat.reduceMul]
  by_cases g : n < 31
  · rw [if_pos g, if_pos g]; rfl
  by_cases h : n - 31 < 560
  · rw [if_neg g, if_pos h, if_neg g, if_pos h, u8_groups _ _ h]
  rw [if_neg g, if_neg h, if_neg g, if_neg h]
  iterate 6 (refine ite_congr rfl (fun _ => rfl) fun _ => ?_)
  repeat' split
  all_goals omega

theorem image_sound : structuralFault (most ++ last) = none := by
  unfold structuralFault
  delta kindFault overflowFault playClipFault clipFault thresholdFault listFault
  simp only [listedSteps, stepCount, stepKind, stepField, branchCount, nestFault,
    stepClipFault, targetFault, containsNest, doubleNestFault, repeatFault,
    listDefined, listFirst, listLength, listLoop, groupDefined, clipPresent, clipStartAt, clipLengthAt, playCount, playClip,
    memoryBytes, u16, u24, stepNo, u8_image]
  decide +kernel

theorem most_length : most.length = 3304 := by
  simp only [most, List.length_append, groups_length, List.length_replicate, List.length_cons, List.length_nil]

theorem read_length : readLength most = 13 := by
  rw [readLength, most_length]; decide +kernel

theorem witness_LoadEndsInJoining : (loading most 65280).load.reading = some (most, 65280) ∧
    (most ++ lastRead.toList.take (readLength most)).length = imageLength (most ++ lastRead.toList.take (readLength most)) ∧
    addToSum most.length 65280 (lastRead.toList.take (readLength most)) = 0 ∧
    structuralFault (most ++ lastRead.toList.take (readLength most)) = none ∧
    (loading most 65280).bus.inHand = none ∧ (loading most 65280).bus.replies = [] ∧
    (loading most 65280).bus.ordinary = [] ∧ (loading most 65280).bus.line = none := by
  have e : lastRead.toList.take 13 = last := by decide +kernel
  rw [read_length, e, most_length]
  refine ⟨rfl, ?_, by decide +kernel, image_sound, rfl, rfl, rfl, rfl⟩
  rw [List.length_append, most_length, imageLength, u16, u8_image, u8_image]
  decide +kernel

/-- The station takes events, and position 7 is in the state. -/
def Takes7 (s : State) (st : AgentState) : Prop := TakesEvents s ∧ (s.agent 7).state = st

theorem takes_of {s : State} (h : s.port.transaction = .idle) (g : s.outOfService = false) : TakesEvents s := idle_takes g h

theorem ready7 : Takes7 readyS (.ready 900) := ⟨takes_of rfl rfl, by decide +kernel⟩
theorem claiming7 : Takes7 claimingS (.claiming 900) := ⟨takes_of rfl rfl, by decide +kernel⟩
theorem wrap7 : Takes7 wrapS (.wrap ⟨0, 5, 0⟩ 1000) := ⟨takes_of rfl rfl, by decide +kernel⟩
theorem wrapOver7 : Takes7 wrapOverS (.wrapOver ⟨0, 30, 3⟩ 400) := ⟨takes_of rfl rfl, by decide +kernel⟩
theorem talking7 : Takes7 talkingS (.talking onOurs) := ⟨takes_of rfl rfl, by decide +kernel⟩
theorem alerting7 : Takes7 alertingS (.alerting 900 onOurs 1000) := ⟨takes_of rfl rfl, by decide +kernel⟩
theorem remote7 : Takes7 remoteS (.alerting 900 onTheirs 1000) := ⟨takes_of rfl rfl, by decide +kernel⟩
theorem loggedOut7 : Takes7 base .loggedOut := ⟨base_takes, by decide +kernel⟩
theorem notReady7 : Takes7 (agentIn (.notReady 0) base) (.notReady 0) := ⟨takes_of rfl rfl, by decide +kernel⟩

theorem witness_EventsAreRefused : (Instr.agentReady ⟨7, 1⟩).clocksOut = some 1 ∧ State.reset.outOfService = true ∧
    NoRestart State.reset ∧ TakesEvents base ∧ (Instr.agentReady ⟨48, 0⟩).namesPosition = some 48 ∧
    (Instr.agentReady ⟨48, 0⟩).clocksOut = some 0 ∧ clockedOut 1 [0, 5] = [0] ∧ clockedOut 2 [0, 5] = [0, 5] ∧
    clockedOut 3 [0, 5] = [0, 5, 0] := ⟨rfl, rfl, reset_noRestart, base_takes, rfl, rfl, rfl, rfl, rfl⟩

theorem witness_LoginStoresTheMemberships : TakesEvents base ∧ LoginInRange base [(0, 1), (1, 15)] ∧ ¬ LoginInRange base [] ∧
    ¬ LoginInRange base [(0, 0)] ∧ ¬ LoginInRange base [(3, 1)] ∧
    ([⟨0, 1⟩, ⟨1, 15⟩] : List Membership).map (fun m => (m.group.val, m.proficiency)) = [(0, 1), (1, 15)] ∧
    (base.agent 7).state = .loggedOut ∧ TakesEvents wrapS ∧ (wrapS.agent 7).state ≠ .loggedOut := by
  refine ⟨base_takes, ?_, ?_, ?_, ?_, rfl, by decide +kernel, wrap7.1, by decide +kernel⟩ <;> unfold LoginInRange <;> decide +kernel

theorem witness_LogoutEndsTheSession : Takes7 (agentIn (.notReady 0) base) (.notReady 0) ∧ Takes7 readyS (.ready 900) ∧
    Takes7 claimingS (.claiming 900) ∧ Takes7 wrapS (.wrap ⟨0, 5, 0⟩ 1000) ∧ Takes7 base .loggedOut :=
  ⟨notReady7, ready7, claiming7, wrap7, loggedOut7⟩

theorem witness_ReadyMakesTheAgentAvailable : Takes7 (agentIn (.notReady 0) base) (.notReady 0) ∧
    Takes7 wrapOverS (.wrapOver ⟨0, 30, 3⟩ 400) ∧ Takes7 claimingS (.claiming 900) ∧ Takes7 talkingS (.talking onOurs) :=
  ⟨notReady7, wrapOver7, claiming7, talking7⟩

theorem witness_NotReadyTakesTheReason : Takes7 readyS (.ready 900) ∧ Takes7 claimingS (.claiming 900) ∧
    Takes7 wrapS (.wrap ⟨0, 5, 0⟩ 1000) ∧ Takes7 alertingS (.alerting 900 onOurs 1000) ∧ Takes7 base .loggedOut ∧ 13 ≤ 13 :=
  ⟨ready7, claiming7, wrap7, alerting7, loggedOut7, Nat.le_refl _⟩

theorem witness_AnswerConnectsTheCall : Takes7 alertingS (.alerting 900 onOurs 1000) ∧
    (alertingS.alertedCall 7 onOurs).isSome = true ∧ Takes7 remoteS (.alerting 900 onTheirs 1000) ∧
    Takes7 talkingS (.talking onOurs) ∧ Takes7 base .loggedOut := ⟨alerting7, by decide +kernel, remote7, talking7, loggedOut7⟩

/-- Talking in group 1 (auto-ready) and in group 2 (not), both with a wrap budget of 0. -/
def talkingIn (g : Group) : State := agentIn (.talking ⟨ours, g, true⟩) base

theorem witness_ClearStartsTheWrap : Takes7 talkingS (.talking onOurs) ∧ 0 < (talkingS.groupRec 0).wrapBudget ∧
    Takes7 (talkingIn 1) (.talking ⟨ours, 1, true⟩) ∧ ((talkingIn 1).groupRec 1).wrapBudget = 0 ∧
    ((talkingIn 1).groupRec 1).autoReady = true ∧ Takes7 (talkingIn 2) (.talking ⟨ours, 2, true⟩) ∧
    ((talkingIn 2).groupRec 2).wrapBudget = 0 ∧ ((talkingIn 2).groupRec 2).autoReady = false ∧ Takes7 readyS (.ready 900) :=
  ⟨talking7, by decide +kernel, ⟨takes_of rfl rfl, by decide +kernel⟩, by decide +kernel, by decide +kernel,
    ⟨takes_of rfl rfl, by decide +kernel⟩, by decide +kernel, by decide +kernel, ready7⟩

theorem witness_WrapDoneMakesTheAgentReady : Takes7 wrapS (.wrap ⟨0, 5, 0⟩ 1000) ∧
    Takes7 wrapOverS (.wrapOver ⟨0, 30, 3⟩ 400) ∧ Takes7 readyS (.ready 900) := ⟨wrap7, wrapOver7, ready7⟩

/-- The agent of a state has used its extension. -/
def spent (s : State) : State := { s with agents := alter s.agents 7 fun a => { a with extensionUsed := true } }

/-- WRAP_OVER in group 1, whose extension is 0. -/
def overIn1 : State := agentIn (.wrapOver ⟨1, 0, 0⟩ 990) base

theorem witness_WrapExtendIsSpentOnce : TakesEvents (spent wrapS) ∧ ((spent wrapS).agent 7).extensionUsed = true ∧
    TakesEvents readyS ∧ (readyS.agent 7).state.work = none ∧ Takes7 wrapS (.wrap ⟨0, 5, 0⟩ 1000) ∧
    (wrapS.agent 7).extensionUsed = false ∧ Takes7 wrapOverS (.wrapOver ⟨0, 30, 3⟩ 400) ∧
    (wrapOverS.agent 7).extensionUsed = false ∧ 0 < (wrapOverS.groupRec 0).extension ∧
    Takes7 overIn1 (.wrapOver ⟨1, 0, 0⟩ 990) ∧ (overIn1.agent 7).extensionUsed = false ∧ (overIn1.groupRec 1).extension = 0 :=
  ⟨takes_of rfl rfl, by decide +kernel, ready7.1, by decide +kernel, wrap7, by decide +kernel, wrapOver7, by decide +kernel,
    by decide +kernel, ⟨takes_of rfl rfl, by decide +kernel⟩, by decide +kernel, by decide +kernel⟩

/-- Just enough free entries for a local and for a remote release, one too few, the deadline not reached, and a waiting
RONA at the head and behind another. -/
theorem witness_AlertReleaseIsTheRona :
    (((filled 30 alertingS).agent 7).state = .alerting 900 onOurs 1000 ∧ (filled 30 alertingS).free = 2 ∧
      ((filled 30 alertingS).alertedCall 7 onOurs).isSome = true ∧ 1000 ≤ (filled 30 alertingS).now) ∧
    ((filled 31 alertingS).free = 1 ∧ ((filled 31 alertingS).agent 7).state = .alerting 900 onOurs 1000) ∧
    (((filled 31 remoteS).agent 7).state = .alerting 900 onTheirs 1000 ∧ (filled 31 remoteS).free = 1) ∧
    ((agentIn (.alerting 900 onOurs 1000) base).alertedCall 7 onOurs = none ∧
      ((agentIn (.alerting 900 onOurs 1000) base).agent 7).state = .alerting 900 onOurs 1000) ∧
    ((atTime 999 alertingS).now < 1000 ∧ ((atTime 999 alertingS).agent 7).state = .alerting 900 onOurs 1000) ∧
    waitsBehind ((alertingS.await (.divert 1)).await (.rona 7)) (.rona 7) := by decide +kernel

/-! Calls. -/

theorem callIn_at (k : Call) (c : Slot) : (callIn k base).callAt c = if c = 0 then some k else none := by
  have h := base_calls c
  simp only [State.callAt, callIn, alter, Fin.getElem_fin] at h ⊢
  rw [Vector.getElem_set]
  by_cases e : c = 0
  · subst e; rfl
  · rw [if_neg (fun x => e (Fin.ext x.symm)), if_neg e, h]

theorem callIn_holds (k : Call) : Holds (callIn k base) k.trunk 0 k := by
  refine ⟨by rw [callIn_at, if_pos rfl], rfl, fun d j e _ => ?_⟩
  rw [callIn_at] at e
  split at e
  · assumption
  · cases e

theorem alerting_holds : Holds alertingS 3 0 (call (.alertingLocal 7)) := callIn_holds _

theorem base_queuesAgree : QueuesAgree base := by
  have q : ∀ g, base.queue g = [] := by decide +kernel
  refine ⟨fun g => by rw [q]; exact List.nodup_nil, fun g c => ?_, fun g => by rw [q]; exact List.Pairwise.nil,
    fun c => of_none (base_calls c), nofun⟩
  rw [q]
  refine ⟨nofun, fun ⟨k, h, _⟩ => ?_⟩
  rw [base_calls] at h; cases h

theorem waiting_queuesAgree : QueuesAgree waitingS := by
  have q : ∀ g, waitingS.queue g = if g = 0 then [0] else [] := by decide +kernel
  have e : ∀ c, waitingS.callAt c = if c = 0 then some (call .waiting) else none := callIn_at _
  refine ⟨fun g => by rw [q]; split <;> simp, fun g c => ?_, fun g => by rw [q]; split <;> simp, fun c k h => ?_, nofun⟩
  · rw [q, e]
    constructor
    · intro h; split at h
      · rw [List.mem_singleton] at h; subst h; exact ⟨call .waiting, rfl, Eq.symm ‹g = 0›, nofun⟩
      · cases h
    · rintro ⟨k, h, rfl, _⟩; split at h
      · cases h; subst ‹c = 0›; decide
      · cases h
  · rw [e] at h; split at h
    · cases h; decide
    · cases h

/-- All slots hold calls, of other trunks. -/
def fullS : State := { base with calls := Vector.replicate 64 ⟨1, false, some (call .connected)⟩ }

theorem full_calls : ∀ c, fullS.callAt c = some (call .connected) := by decide +kernel

theorem witness_SeizeRecordsTheCall :
    (TakesEvents base ∧ base.defines 15 = false ∧ base.defines 0 = true ∧ QueuesAgree base ∧
      (∀ d k, base.callAt d = some k → k.trunk ≠ 3) ∧ base.callAt 0 = none ∧ ∀ d : Slot, d < 0 → base.callAt d ≠ none) ∧
    (TakesEvents waitingS ∧ ∃ c k, waitingS.callAt c = some k ∧ k.trunk = 3) ∧
    TakesEvents fullS ∧ (∀ c k, fullS.callAt c = some k → k.trunk ≠ 4) ∧ ∀ c, fullS.callAt c ≠ none :=
  ⟨⟨base_takes, by decide +kernel, by decide +kernel, base_queuesAgree, fun d => of_none (base_calls d), base_calls 0,
      fun d h => absurd h (Nat.not_lt_zero _)⟩,
    ⟨takes_of rfl rfl, 0, call .waiting, by decide +kernel, rfl⟩,
    takes_of rfl rfl, fun c => of_some (full_calls c) (by decide), fun c => by rw [full_calls]; nofun⟩

/-- An ALERTING-local call whose agent no longer alerts for it. -/
def crossedS : State := callIn (call (.alertingLocal 7)) base

theorem witness_TrunkAnsweredConnectsTheCall :
    (TakesEvents base ∧ ∀ c k, base.callAt c = some k → k.trunk ≠ 3) ∧
    (TakesEvents waitingS ∧ Holds waitingS 3 0 (call .waiting)) ∧ (TakesEvents watchedS ∧ Holds watchedS 3 0 (call (.alertingRemote 9 11 1000))) ∧
    (TakesEvents alertingS ∧ Holds alertingS 3 0 (call (.alertingLocal 7)) ∧
      (alertingS.agent 7).state = .alerting 900 onOurs 1000 ∧ onOurs.isLocal = true ∧ alertingS.refOf 0 = some onOurs.ref) ∧
    TakesEvents crossedS ∧ Holds crossedS 3 0 (call (.alertingLocal 7)) ∧
      ∀ since b d, (crossedS.agent 7).state = .alerting since b d → ¬(b.isLocal = true ∧ crossedS.refOf 0 = some b.ref) :=
  ⟨⟨base_takes, fun c => of_none (base_calls c)⟩, ⟨takes_of rfl rfl, callIn_holds _⟩, ⟨takes_of rfl rfl, callIn_holds _⟩,
    ⟨takes_of rfl rfl, alerting_holds, alerting7.2, rfl, rfl⟩, takes_of rfl rfl, callIn_holds _,
    fun a b d h => by rw [(by decide +kernel : (crossedS.agent 7).state = .loggedOut)] at h; cases h⟩

theorem alerting_bindingsAgree : BindingsAgree alertingS := by
  have b : ∀ p : Position, (alertingS.agent p).state.binding.isSome = true → p = 7 := by decide +kernel
  have one : ∀ p r, (alertingS.agent p).boundTo r = true → p = 7 := fun p r h => b p <| by
    rw [Agent.boundTo] at h
    cases e : (alertingS.agent p).state.binding with
    | none => rw [e] at h; cases h
    | some _ => rfl
  refine ⟨fun p q r hp hq => (one p r hp).trans (one q r hq).symm, fun p => ⟨fun ⟨x, hx, _⟩ => ?_, fun ⟨n, h⟩ => ?_⟩, List.nodup_nil⟩
  · cases hx
  · have := (by decide +kernel : ∀ p : Position, (alertingS.agent p).state.binding.isSome = true ∨ (alertingS.agent p).state = .loggedOut) p
    rw [h] at this; rcases this with h | h <;> cases h

theorem witness_TrunkReleaseFreesTheRecord :
    (TakesEvents base ∧ ∀ c k, base.callAt c = some k → k.trunk ≠ 3) ∧
    (Holds waitingS 3 0 (call .waiting) ∧ Holds (callIn (call .connected) base) 3 0 (call .connected)) ∧
    (TakesEvents offeredS ∧ Holds offeredS 3 0 (call (.offered 9 1000 0)) ∧ offeredS.bus.id = some 4) ∧
    (TakesEvents (filled 32 alertingS) ∧ (filled 32 alertingS).free = 0) ∧
    TakesEvents alertingS ∧ Holds alertingS 3 0 (call (.alertingLocal 7)) ∧ 0 < alertingS.free ∧
      alertingS.refOf 0 = some onOurs.ref ∧ BindingsAgree alertingS ∧ (alertingS.agent 7).state = .alerting 900 onOurs 1000 :=
  ⟨⟨base_takes, fun c => of_none (base_calls c)⟩, ⟨callIn_holds _, callIn_holds _⟩,
    ⟨takes_of rfl rfl, callIn_holds _, rfl⟩, ⟨takes_of rfl rfl, by decide +kernel⟩, takes_of rfl rfl, alerting_holds,
    by decide +kernel, rfl, alerting_bindingsAgree, alerting7.2⟩

/-- A call that hears a bed, and one that holds voice 0. -/
def beddedS : State := callWith fun k => { k with context := some onBed }
def voicedS : State :=
  let s := callWith fun k => { k with context := some { onBed with list := 1, heard := .voice 0, deadline := none } }
  { s with treat := { s.treat with voices := alter s.treat.voices 0 fun _ => some 0 } }

theorem witness_ConnectingAndFreeingEndTheWait : waitingS.callAt 0 = some (call .waiting) ∧ waitingS.contextAt 0 = none ∧
    beddedS.contextAt 0 = some onBed ∧ (∀ v : Voice, beddedS.treat.voices[v] ≠ some 0) ∧ voicedS.treat.voices[(0 : Voice)] = some 0 ∧
    (0 : Voice).val + 4 = (4 : StreamId).val := by decide +kernel

/-- The deadlines reached to the decisecond and missed by one; a marked call; W of 0 in group 1. -/
theorem witness_CallDeadlinesAct :
    ((atTime 1500 waitingS).callAt 0 = some (call .waiting) ∧
      (call .waiting).arrival + 10 * tierTime ((atTime 1500 waitingS).groupRec 0) .two ≤ (atTime 1500 waitingS).now ∧
      (call .waiting).tier < raisedTier .two ∧ raisedTier .one ≤ (call .waiting).tier ∧
      (atTime 1499 waitingS).now < (call .waiting).arrival + 10 * tierTime ((atTime 1499 waitingS).groupRec 0) .two) ∧
    ((atTime 1500 offeredS).callAt 0 = some (call (.offered 9 1000 0)) ∧ (call (.offered 9 1000 0)).state ≠ .waiting) ∧
    (0 < (waitingS.groupRec 0).maxWait ∧ (call .waiting).arrival + 10 * (waitingS.groupRec 0).maxWait = 2100 ∧
      (atTime 2100 waitingS).now = 2100 ∧ (atTime 2100 offeredS).now = 2100 ∧ (waitingS.groupRec 1).maxWait = 0) ∧
    (callWith fun k => { k with divertPending := true }).callAt 0 = some { call .waiting with divertPending := true } ∧
    0 < (callWith fun k => { k with divertPending := true }).free ∧
    ¬waitsBehind (callWith fun k => { k with divertPending := true }) (.divert 0) ∧
    waitsBehind (((callWith fun k => { k with divertPending := true }).await (.rona 7)).await (.divert 0)) (.divert 0) := by
  decide +kernel

/-- WRAP in group 1, which is auto-ready. -/
def wrapIn1 : State := agentIn (.wrap ⟨1, 0, 0⟩ 1000) base

theorem witness_WrapDeadlinesEndTheWrap :
    ((wrapS.agent 7).state = .wrap ⟨0, 5, 0⟩ 1000 ∧ 1000 ≤ wrapS.now ∧ (wrapS.groupRec 0).autoReady = false) ∧
    ((wrapIn1.agent 7).state = .wrap ⟨1, 0, 0⟩ 1000 ∧ (wrapIn1.groupRec 1).autoReady = true) ∧ (atTime 999 wrapS).now < 1000 ∧
    (wrapOverS.agent 7).state = .wrapOver ⟨0, 30, 3⟩ 400 ∧ 0 < (wrapOverS.groupRec 0).graceLimit ∧
    400 + 10 * (wrapOverS.groupRec 0).graceLimit = wrapOverS.now := by decide +kernel

theorem witness_SecondBoundaryCreditsEveryRecord : base.time.secondsDue = 0 ∧
    0 < ({ base with time := { base.time with secondsDue := 1 } } : State).time.secondsDue ∧
    ({ base with time := { base.time with secondsDue := 1 } } : State).time.windowCount + 1 ≠ base.conf.windowHalf ∧
    ({ base with time := { base.time with secondsDue := 1, windowCount := 899 } } : State).time.windowCount + 1 =
      base.conf.windowHalf := by decide +kernel

theorem witness_FramesAreCounted : base.time.syncPresent = true ∧ (State.resetWith false).time.syncPresent = false := ⟨rfl, rfl⟩

theorem witness_DecisecondTakesTheLadder : base.time.dsDue = 0 ∧ base.building = true ∧ State.reset.building = false ∧
    0 < ({ base with time := { base.time with dsDue := 1 } } : State).time.dsDue ∧
    significantChange (withPeer ⟨0, 0, 0, 0, 0⟩ waitingS) = true ∧ significantChange base = false := by decide +kernel

/-! Streams. -/

/-- Stream 4 with other contents, and stream 0 on the bed of clip 0. -/
def streamWith (x : Stream) : State := { streamS with clips := { streamS.clips with streams := alter streamS.clips.streams 4 fun _ => x } }
def bedS (left : Nat) : State := { streamS with clips := { streamS.clips with
  streams := alter streamS.clips.streams 0 fun _ => ⟨some ⟨0, some (0, 0), 1000, 8000, left⟩, [7], true, 0, 1⟩ } }

theorem witness_StreamsPlayEachFrame :
    (0 : StreamId).val < ({ base with clips := { base.clips with frameCursor := 1 } } : State).clips.frameCursor ∧
    streamS.clips.frameCursor ≤ 4 ∧ (streamS.stream 5).playing = none ∧
    ((streamWith ⟨some ⟨0, none, 1002, 0, 2⟩, [], true, 0, 3⟩).stream 4 = ⟨some ⟨0, none, 1002, 0, 2⟩, [], true, 0, 3⟩) ∧
    (streamS.stream 4 = ⟨some ⟨0, none, 1002, 0, 2⟩, [7, 8], true, 0, 3⟩) ∧
    ((bedS 1).stream 0 = ⟨some ⟨0, some (0, 0), 1000, 8000, 1⟩, [7], true, 0, 1⟩ ∧ ((bedS 1).playlistOf 0).length = 1) ∧
    ((streamWith ⟨some ⟨0, none, 1002, 0, 1⟩, [7], true, 0, 3⟩).stream 4 = ⟨some ⟨0, none, 1002, 0, 1⟩, [7], true, 0, 3⟩ ∧
      (0 : Voice).val + 4 = (4 : StreamId).val) := by decide +kernel

/-- A read of stream 4 in flight, of the present epoch and of one that has ended. -/
def readS (e : Nat) : State := { streamS with clips := { streamS.clips with inFlight := some ⟨4, e, 1000, 2⟩ } }

theorem bed_needs : NeedsFetch (bedS 8000) 0 := ⟨⟨0, some (0, 0), 1000, 8000, 8000⟩, by decide +kernel⟩

theorem witness_ReadsFillTheFifosInTurn : base.clips.inFlight = none ∧
    ((readS 3).clips.inFlight = some ⟨4, 3, 1000, 2⟩ ∧ ((readS 3).stream 4).playing = some ⟨0, none, 1002, 0, 2⟩ ∧
      ((readS 3).stream 4).epoch = 3 ∧ ((readS 2).stream 4).epoch ≠ 2) ∧
    State.reset.bus.station = .starting ∧
    (bedS 8000).clips.inFlight = none ∧ (bedS 8000).bus.station ≠ .starting ∧
    (0 : StreamId).val = ((bedS 8000).clips.lastServed.val + 1 + 0) % 16 ∧ NeedsFetch (bedS 8000) 0 ∧
    ((bedS 8000).stream 0).playing = some ⟨0, some (0, 0), 1000, 8000, 8000⟩ ∧ (base.stream 4).playing = none :=
  ⟨rfl, by decide +kernel, rfl, rfl, by decide +kernel, by decide +kernel, bed_needs, by decide +kernel, by decide +kernel⟩

/-! The Shelf Port. -/

theorem witness_ReportsAreClockedFieldByField : NoRestart base ∧
    (during (.report .station 4 none) base).port.transaction = .report .station 4 none ∧
    (during (.report .station 4 (some [0, 0])) base).port.transaction = .report .station 4 (some [0, 0]) :=
  ⟨base_noRestart, rfl, rfl⟩

theorem witness_ReportAgentReadsAndClears : NoRestart base := base_noRestart
theorem witness_ReportGroupReadsAndClears : NoRestart base := base_noRestart
theorem witness_ReportStationReadsAndClears : NoRestart base := base_noRestart

theorem filled_noRestart (n : Nat) : NoRestart (filled n base) := fun _ => nofun

/-- A due divert that waits for room with the queue full, and a waiting RONA of a local alert. -/
def dueS : State := filled 32 ((callWith fun k => { k with divertPending := true }).await (.divert 0))
def ronaS : State := filled 32 (alertingS.await (.rona 7))

theorem witness_RoomIsHandedOut : dueS.port.waits = [.divert 0] ∧ waitNeed dueS (.divert 0) = 1 ∧
    (takeWaiter (.divert 0) (unawaited (.divert 0) (filled 31 dueS))).port.waits = [] ∧ (filled 31 dueS).free = 1 ∧
    ronaS.port.waits = [.rona 7] ∧ (filled 31 ronaS).free < waitNeed (filled 31 ronaS) (.rona 7) ∧
    (ronaS.agent 7).state = .alerting 900 onOurs 1000 := by decide +kernel

theorem witness_TakeRemovesTheHeadDirective : NoRestart base ∧ base.port.directives = [] ∧ NoRestart (filled 2 base) ∧
    (filled 2 base).port.directives = .withdraw 1 :: [.withdraw 1] ∧
    (during (.take (some (.withdraw 1)) false) (filled 2 base)).port.transaction = .take (some (.withdraw 1)) false ∧
    (filled 2 base).port.waits = [] ∧ (filled 2 base).treat.holdList = [] ∧ (filled 2 base).anyDeferred = false :=
  ⟨base_noRestart, rfl, filled_noRestart 2, rfl, rfl, rfl, rfl, by decide +kernel⟩

theorem witness_AttentionReturnsTheTopCause : NoRestart base ∧ (∀ c, causePending base c = false) ∧ NoRestart (filled 2 base) ∧
    causePending (filled 2 base) .directivesPending = true ∧
    (∀ d, causePending (filled 2 base) d = true → causeByte (some .directivesPending) ≤ causeByte (some d)) ∧
    (during (.attention none false) base).port.transaction = .attention none false ∧
    (during (.attention (some (some .peerChange, 512)) false) base).port.transaction =
      .attention (some (some .peerChange, 512)) false :=
  ⟨base_noRestart, fun c => by cases c <;> decide +kernel, filled_noRestart 2, rfl,
    fun d => by cases d <;> decide +kernel, rfl, rfl⟩

/-- The last bit of every cause and of NONE, with frame sync and without it; the two isolation causes, and a load fault. -/
theorem witness_CausesAreCleared :
    (∀ c, (during (.attention (some (c, 0)) false) base).port.transaction = .attention (some (c, 0)) false) ∧
    base.time.syncPresent = true ∧ (State.resetWith false).time.syncPresent = false ∧
    ({ base with port := { base.port with isolated := some .busFault } } : State).port.isolated = some .busFault ∧
    ({ base with port := { base.port with isolated := some .duplicateId } } : State).port.isolated = some .duplicateId ∧
    ({ base with port := { base.port with loadFault := some 17 } } : State).port.loadFault = some 17 :=
  ⟨fun _ => rfl, rfl, rfl, rfl, rfl, rfl⟩

theorem witness_ChangesClearsTheMarksItReturns : NoRestart base ∧
    (during (.changes [7] 1) base).port.transaction = .changes [7] (0 + 1) ∧ [(7 : Position)][0]? = some 7 :=
  ⟨base_noRestart, rfl, rfl⟩

/-- The state in pulse mode. -/
def pulsing (s : State) : State := { s with cfg := some { conf with pulseMode := true } }

theorem witness_AttentionLineFollowsTheCauses : base.pulseMode = false ∧ (pulsing base).pulseMode = true ∧
    causePending (pulsing (filled 1 base)) .directivesPending = true ∧ causePending (pulsing base) .directivesPending = false :=
  ⟨rfl, rfl, rfl, rfl⟩

/-! Distribution. -/

/-- The waiting call and a ready agent for it; a peer whose best is `best`. -/
def bothS : State := { waitingS with agents := readyS.agents }
def peerS (best : Nat) (s : State) : State := withPeer ⟨0, 2, best, 3, 40⟩ s

theorem witness_SelectionsFollowTheOrders :
    ∀ p : Position, scoreIn readyS (readyS.agent p) 0 ≠ 0 → (readyS.agent p).state.available = true := by decide +kernel

/-- An age of 40 s received 1 s ago with three waiting, and one with nobody waiting. -/
theorem witness_AgesGrow :
    (peerS 5 base).peers.rows[9] = some ⟨1100, some 990, [⟨0, 2, 5, 3, 40⟩]⟩ ∧
    0 < (peerEntry (peerS 5 base) 9 0).waiting ∧ effectiveAge (peerS 5 base) 9 0 = 41 ∧
    (peerEntry (withPeer ⟨0, 2, 5, 0, 40⟩ base) 9 0).waiting = 0 := by decide +kernel

/-- Agent 8 still talks under the reference of a call released sixteen reuses of slot 0 ago. -/
def heldS : State := { bothS with agents := bothS.agents.set 8 (talkingS.agent 7) }

/-- R13, R39: no agent is free for a call whose reference is bound here, so a best above the margin of 2048 wins, though
agent 7 scores 18692; and one of 2048 leaves both waiting. -/
theorem test_refusedBind :
    (attemptCall 0 (peerS 2049 heldS)).callAt 0 = some (call (.offered 9 1006 0)) ∧
    (attemptCall 0 (peerS 2048 heldS)).callAt 0 = some (call .waiting) ∧
    ((attemptCall 0 (peerS 2048 heldS)).agent 7).state = .ready 900 ∧
    ((attemptCall 0 (peerS 2049 bothS)).agent 7).state.alertingNow = true := by decide +kernel

/-- 18692 is the agent's score and 2048 the margin: a best of 20741 wins and 20740 does not; with no agent 2049 wins. -/
theorem witness_CallAttemptsDecideByTheMargin :
    (waitingS.callAt 0 = some (call .waiting) ∧ (call .waiting).divertPending = false) ∧
    ((filled 25 waitingS).free < 8 ∧ 8 ≤ (filled 24 waitingS).free) ∧
    (bestPeer (peerS 20741 bothS) (call .waiting) = some (9, 20741, 0) ∧
      bestLocal (peerS 20741 bothS) 0 (call .waiting) = some (7, 18692) ∧ 18692 + (peerS 20741 bothS).conf.margin < 20741) ∧
    (bestPeer (peerS 20740 bothS) (call .waiting) = some (9, 20740, 0) ∧ 20740 ≤ 18692 + (peerS 20740 bothS).conf.margin) ∧
    bestLocal (peerS 2048 waitingS) 0 (call .waiting) = none ∧
    bestPeer (peerS 2048 waitingS) (call .waiting) = some (9, 2048, 0) ∧ 2048 ≤ (peerS 2048 waitingS).conf.margin ∧
    (peerS 2049 waitingS).conf.margin < 2049 ∧
    ((∀ q me, bothS.bus.id = some me → (bothS.agent q).boundTo ⟨me, 0, (bothS.slotRec 0).gen⟩ = false) ∧
      heldS.bus.id = some 4 ∧ (heldS.agent 8).boundTo ⟨4, 0, (heldS.slotRec 0).gen⟩ = true) ∧ (offeredS.callAt 0).map Call.state ≠ some .waiting := by decide +kernel

theorem witness_AgentAttemptsServeTheirCallers :
    ((claimingS.agent 7).state = .claiming 900 ∧ (readyS.agent 7).state = .ready 900) ∧
    ((filled 25 readyS).free < 8 ∧ 8 ≤ (filled 24 readyS).free) ∧
    pickCall bothS (bothS.agent 7) = some (0, call .waiting) ∧
    (pickCall readyS (readyS.agent 7) = none ∧ pickClaim readyS (readyS.agent 7) = none) ∧
    pickCall (peerS 1 readyS) ((peerS 1 readyS).agent 7) = none ∧ (peerS 1 readyS).bus.station = .active ∧
    (peerS 1 readyS).exch.claims.length < 8 ∧ pickClaim (peerS 1 readyS) ((peerS 1 readyS).agent 7) = some (9, 0) := by
  decide +kernel

theorem both_unbound : ∀ q, (bothS.agent q).boundTo ours = false := by decide +kernel

theorem witness_BindingsOffersAndClaimsStart :
    (bothS.callAt 0 = some (call .waiting) ∧ bothS.bus.id = some 4 ∧ (bothS.agent 7).state.available = true ∧
      (bothS.agent 7).state.since = some 900 ∧ 2 ≤ (filled 30 bothS).free ∧
      ∀ q, (bothS.agent q).boundTo ⟨4, 0, (bothS.slotRec 0).gen⟩ = false) ∧
    (heldS.bus.id = some 4 ∧ (heldS.agent 8).boundTo ⟨4, 0, (heldS.slotRec 0).gen⟩ = true) ∧
    0 < waitingS.ordinaryRoom ∧ (peerS 1 base).peers.rows[9] = some ⟨1100, some 990, [⟨0, 2, 1, 3, 40⟩]⟩ ∧
    (readyS.agent 7).state = .ready 900 :=
  ⟨⟨by decide +kernel, rfl, by decide +kernel, by decide +kernel, by decide +kernel, both_unbound⟩,
    ⟨rfl, by decide +kernel⟩, by decide +kernel, by decide +kernel, ready7.2⟩

/-! Treatments. -/

/-- The call with the context at step `i` of list 1, its control run `n` and its step deadline `d`. -/
def walking (i n : Nat) (d : Option Nat) : Context := ⟨1, i, none, none, .silence, d, none, 0, n, false⟩
def walkS (x : Context) : State := callWith fun k => { k with context := some x }

theorem witness_TreatmentsWalkTheirLists :
    (waitingS.callAt 0 = some (call .waiting) ∧ 0 < waitingS.free ∧ (filled 32 waitingS).free = 0) ∧
    ((walkS (walking 1 0 none)).contextAt 0 = some (walking 1 0 none) ∧
      (walkS (walking 1 0 none)).stepAt 1 2 = some (.silence 3) ∧ (TreatStep.silence 3).timed = true ∧
      (walkS (walking 1 0 none)).stepAt 1 1 = some (.repeatNext 2) ∧ (TreatStep.repeatNext 2).timed = false ∧
      (walkS (walking 1 0 none)).stepAt 1 9 = none) ∧
    ((walking 1 7 none).control < 8 ∧ 8 ≤ (walking 1 8 none).control) ∧
    (0 < branchValue waitingS 0 (call .waiting) (walking 1 0 none) .tier ∧
      branchValue waitingS 0 (call .waiting) (walking 1 0 none) .tier - 1 < [7, 8].length ∧
      [7].length < branchValue waitingS 0 (call .waiting) (walking 1 0 none) .tier) ∧
    (walking 1 0 none).back = none ∧ { walking 1 0 none with back := some ⟨0, 3, some 2⟩ }.back = some ⟨0, 3, some (0 + 2)⟩ ∧
    ((walkS (walking 1 0 none)).callAt 0 = some { call .waiting with context := some (walking 1 0 none) } ∧
      (walking 1 0 none).heard ≠ .voice 0 ∧ 0 < (walkS (walking 1 0 none)).free ∧ ((walkS (walking 1 0 none)).stepAt 1 1).isSome = true) ∧
    (walkS (walking 9 0 none)).stepAt (walking 9 0 none).list (walking 9 0 none).index = none := by
  decide +kernel

/-- The call's own voice; the lowest free one; and none, with no room for the LISTEN. -/
theorem witness_VoicesArePicked : PlaysOn voicedS 0 0 ∧ PlaysOn beddedS 0 0 ∧ ∀ v, ¬ PlaysOn (filled 32 beddedS) 0 v := by
  unfold PlaysOn; decide +kernel

/-- A repeated SILENCE with two runs left, one with one left, a stall before step 1, and a deadline not reached. -/
theorem witness_StepDeadlinesEndTheirSteps :
    ((walkS { walking 2 0 (some 1000) with repeats := some 2 }).callAt 0 =
        some { call .waiting with context := some { walking 2 0 (some 1000) with repeats := some 2 } } ∧
      (walkS (walking 2 0 (some 1000))).stepAt 1 2 = some (.silence 3) ∧ 1000 ≤ (walkS (walking 2 0 (some 1000))).now) ∧
    ((walkS (walking 1 0 (some 1000))).stepAt 1 1 = some (.repeatNext 2)) ∧ (walkS (walking 2 0 (some 1001))).now < 1001 ∧
    waitingS.contextAt 0 = none ∧ waitingS.treat.holdList = [] ∧ (filled 32 waitingS).free = 0 := by decide +kernel

/-- A voice that no context holds, one whose context has a step under way, and a held treatment. -/
theorem witness_ClipsFinish : base.treat.voices[(0 : Voice)] = none ∧ voicedS.treat.voices[(0 : Voice)] = some 0 ∧
    voicedS.contextAt 0 = some { onBed with list := 1, heard := .voice 0, deadline := none } ∧ voicedS.stepAt 1 0 = some (.say 0) ∧
    ({ beddedS with treat := { beddedS.treat with holdList := [0] } } : State).treat.holdList = 0 :: [] ∧ 0 < beddedS.free := by
  decide +kernel

/-! Deadlines of exchanges and stations. -/

theorem witness_ExchangeDeadlinesEndTheExchange :
    (offeredS.callAt 0 = some (call (.offered 9 1000 0)) ∧ 1000 ≤ offeredS.now) ∧
    (watchedS.callAt 0 = some (call (.alertingRemote 9 11 1000)) ∧ watchedS.bus.id = some 4 ∧ 1000 ≤ watchedS.now ∧
      (atTime 999 watchedS).now < 1000 ∧ (filled 32 watchedS).free = 0 ∧ 0 < (filled 31 watchedS).free ∧
      waitsBehind ((watchedS.await (.rona 7)).await (.watch 0)) (.watch 0)) ∧
    (waitingS.callAt 0 = some (call .waiting) ∧ base.callAt 0 = none ∧ base.claimOf 7 = none) ∧
    claimingS.claimOf 7 = some ⟨7, 9, 0, 1000⟩ ∧ (atTime 999 claimingS).now < 1000 ∧ 1000 ≤ claimingS.now ∧
    (claimingS.agent 7).state = .claiming 900 := by decide +kernel

/-- A call with its deferred mark set. -/
def deferredS : State := { waitingS with calls := alter waitingS.calls 0 fun r => { r with deferred := true } }

theorem witness_PassesAndStationDeadlines :
    ((filled 25 deferredS).free < 8 ∧ (∀ c, (base.slotRec c).deferred = false) ∧ (∀ p, (base.agent p).deferred = false) ∧
      8 ≤ (filled 24 deferredS).free ∧ (deferredS.slotRec 0).deferred = true) ∧
    ((inStation (.joining 1000) base).bus.station = .joining 1000 ∧ 1000 ≤ base.now) ∧
    ((inStation (.busFault 1000) base).bus.station = .busFault 1000 ∧ (inStation (.busFault 1000) base).bus.slot = none ∧
      (inStation (.busFault 1001) base).now < 1001 ∧
      (placeSummary (inStation (.busFault 1000) base)).bus.slot ≠ none) ∧
    (withPeer ⟨0, 0, 0, 0, 0⟩ (atTime 1100 base)).peers.rows[9] = some ⟨1100, some 990, [⟨0, 0, 0, 0, 0⟩]⟩ ∧
    1100 ≤ (withPeer ⟨0, 0, 0, 0, 0⟩ (atTime 1100 base)).now ∧ (withPeer ⟨0, 0, 0, 0, 0⟩ (atTime 1099 base)).now < 1100 := by
  decide +kernel

/-! The bus. -/

/-- An OFFER in hand and on the line after `n` collisions; a probe on the line. -/
def offeringS (n : Nat) : State := { base with bus := { base.bus with
  ordinary := [⟨9, .offer ours 0 2 1 0 0⟩], inHand := some .ordinary, line := some ⟨4, 9, .offer ours 0 2 1 0 0⟩, attempts := n } }
def probingS : State := { base with bus := { base.bus with
  station := .busFault 1050, slot := some [], inHand := some .summary, line := some ⟨4, 15, .summary []⟩ } }

theorem witness_TheTransmitterSendsInOrder :
    (queuedS.bus.inHand = some .reply ∧ base.bus.inHand = none) ∧ queuedS.bus.line = none ∧
    queuedS.bus.headOf .reply = some ⟨9, .cancel theirs⟩ ∧ queuedS.bus.id = some 4 ∧ queuedS.bus.backoff = none ∧
    (after (exec .collision sendingS)).bus.backoff = some 1 ∧ (after (exec .collision sendingS)).bus.line = none ∧
    (sendingS.bus.inHand = some .reply ∧ sendingS.bus.line = some ⟨4, 9, .cancel theirs⟩ ∧ sendingS.bus.station = .active) ∧
    ((offeringS 0).bus.inHand = some .ordinary ∧ (offeringS 0).bus.line = some ⟨4, 9, .offer ours 0 2 1 0 0⟩) ∧
    probingS.bus.station = .busFault 1050 ∧ probingS.bus.inHand = some .summary ∧ probingS.bus.line = some ⟨4, 15, .summary []⟩ := by
  decide +kernel

/-- A summary with its attempt on the line, and nothing in hand: the content goes beside it, and into the slot. -/
theorem test_takeSummary : (Bus.takeSummary [⟨0, 1, 0, 0, 0⟩] probingS.bus).slot = probingS.bus.slot ∧
    (Bus.takeSummary [⟨0, 1, 0, 0, 0⟩] probingS.bus).beside = some [⟨0, 1, 0, 0, 0⟩] ∧
    (Bus.takeSummary [⟨0, 1, 0, 0, 0⟩] base.bus).slot = some [⟨0, 1, 0, 0, 0⟩] := by decide +kernel

/-- A SUMMARY out of order, a group twice, and a best with no agent ready (R136). -/
theorem test_heldEntries : heldEntries [⟨3, 1, 9, 0, 0⟩, ⟨1, 0, 7, 2, 4⟩, ⟨3, 2, 8, 1, 5⟩] =
    [⟨1, 0, 0, 2, 4⟩, ⟨3, 2, 8, 1, 5⟩] := by decide +kernel

/-- A reply on the line after 15 collisions and two drops. -/
def thirdS : State := { sendingS with bus := { sendingS.bus with attempts := 15, dropRun := 2 } }

/-- The same of an OFFER. -/
def thirdOfferS : State := { offeringS 15 with bus := { (offeringS 15).bus with dropRun := 2 } }

/-- 14 and 15 collisions before this one; the third drop of a run. -/
theorem witness_CollisionsBackOffAndDrop :
    ((offeringS 14).bus.inHand = some .ordinary ∧ (offeringS 14).bus.line.isSome = true ∧ (offeringS 14).bus.rng = some 0x5A0E ∧
      (offeringS 14).bus.attempts + 1 < 16) ∧
    (16 ≤ (offeringS 15).bus.attempts + 1 ∧ (offeringS 15).bus.dropRun + 1 < 3) ∧
    (thirdS.bus.station.sendsReplies = true ∧ 3 ≤ thirdS.bus.dropRun + 1 ∧ thirdS.bus.inHand = some .reply ∧
      thirdS.bus.line.isSome = true ∧ thirdS.bus.rng = some 0x5A0E) ∧
    (thirdOfferS.bus.inHand = some .ordinary ∧ 3 ≤ thirdOfferS.bus.dropRun + 1 ∧ thirdOfferS.bus.ordinary ≠ []) ∧
    base.bus.inHand = none ∧ (1 : Half) ≠ 0#16 := by decide +kernel

theorem witness_IsolationAbandonsTheQueues : queuedS.bus.ordinary = [] ∧ queuedS.bus.replies ≠ [] ∧
    (offeringS 0).bus.ordinary ≠ [] := by decide +kernel

/-! Received frames. -/

theorem base_arrives : Arrives base ⟨9, 4⟩ 9 4 ∧ Arrives base ⟨9, 15⟩ 9 4 :=
  ⟨⟨rfl, rfl, by decide, rfl, Or.inr rfl⟩, ⟨rfl, rfl, by decide, rfl, Or.inl rfl⟩⟩

theorem witness_FramesAreTestedInOrder :
    (BodyInRange (.cancel ours) ∧ State.reset.outOfService = true ∧ base.outOfService = false) ∧ base.bus.id = some 4 ∧
    (Arrives base ⟨9, 4⟩ 9 4 ∧ (inStation .duplicateId base).bus.station.sendsReplies = false ∧
      Arrives (inStation .duplicateId base) ⟨9, 4⟩ 9 4 ∧ base.bus.station.sendsReplies = true ∧ ours.home ≠ 9 ∧ theirs.home ≠ 4) ∧
    (receiveBytes [0x5D] = none ∧ receiveBytes [0x5D, 9, 0x94, 2, 0, 7, 9 ^^^ 0x94 ^^^ 2 ^^^ 0 ^^^ 7] = some ⟨9, 4, .nocall 0 7⟩) ∧
    (16 < (List.replicate 17 (⟨0, 0, 0, 0, 0⟩ : RawEntry)).length ∧ RefOutside ⟨15, 0, 0⟩ ∧ RefOutside ⟨0, 64, 0⟩ ∧ RefOutside ⟨0, 0, 16⟩) :=
  ⟨⟨trivial, rfl, rfl⟩, rfl, ⟨base_arrives.1, rfl, ⟨rfl, rfl, by decide, rfl, Or.inr rfl⟩, rfl, by decide, by decide⟩,
    by decide +kernel, by decide, Or.inl (by decide), Or.inr (Or.inl (by decide)), Or.inr (Or.inr (by decide))⟩

/-- An OFFERED call with and without room, an ALERTING-remote one, a CONNECTED one, and none. -/
theorem witness_HomeTakesTheReplies :
    (Arrives offeredS ⟨9, 4⟩ 9 4 ∧ ours.home = 4 ∧ offeredS.named ours = some (call (.offered 9 1000 0)) ∧
      offeredS.free ≠ 0 ∧ (filled 32 offeredS).free = 0) ∧
    (Arrives watchedS ⟨9, 4⟩ 9 4 ∧ watchedS.named ours = some (call (.alertingRemote 9 11 1000)) ∧
      watchedS.free ≠ 0 ∧ (filled 32 watchedS).free = 0) ∧
    (Arrives talkingS ⟨9, 4⟩ 9 4 ∧ talkingS.named ours = some (call .connected)) ∧
    (∀ k, base.named ours = some k → (∀ d g, k.state ≠ .offered 9 d g) ∧ ∀ a d, k.state ≠ .alertingRemote 9 a d) :=
  ⟨⟨⟨rfl, rfl, by decide, rfl, Or.inr rfl⟩, rfl, by decide +kernel, by decide +kernel, by decide +kernel⟩,
    ⟨⟨rfl, rfl, by decide, rfl, Or.inr rfl⟩, by decide +kernel, by decide +kernel, by decide +kernel⟩,
    ⟨⟨rfl, rfl, by decide, rfl, Or.inr rfl⟩, by decide +kernel⟩, of_none (by decide +kernel)⟩

/-- An agent alerting and one talking on the offered call, with and without room for two replies; a free agent and none. -/
theorem witness_PeerTakesTheOffers :
    (Arrives remoteS ⟨9, 4⟩ 9 4 ∧ theirs.home = 9 ∧ remoteS.bus.station.sendsReplies = true ∧ remoteS.boundAgent theirs = some 7 ∧
      (remoteS.agent 7).state = .alerting 900 onTheirs 1000 ∧ 0 < (filled 31 remoteS).free ∧ (filled 32 remoteS).free = 0) ∧
    ((agentIn (.talking onTheirs) base).boundAgent theirs = some 7 ∧ (agentIn (.talking onTheirs) queuedS).bus.replies.length + 2 ≤ 8) ∧
    (readyS.boundAgent theirs = none ∧ readyS.defines 0 = true ∧ readyS.defines 15 = false ∧
      bestAgent readyS (fun a => scoreIn readyS (readyS.agent a) 0) = some (7, 18692) ∧ 0 < readyS.free ∧
      readyS.bus.replies.length < 8 ∧ (readyS.agent 7).state.since = some 900) ∧
    base.boundAgent theirs = none ∧ bestAgent base (fun a => scoreIn base (base.agent a) 0) = none :=
  ⟨⟨⟨rfl, rfl, by decide, rfl, Or.inr rfl⟩, rfl, rfl, by decide +kernel, remote7.2, by decide +kernel, by decide +kernel⟩,
    ⟨by decide +kernel, by decide +kernel⟩, by decide +kernel, by decide +kernel, by decide +kernel⟩

/-- The peer's row before and after a SUMMARY that raises its best for group 0. -/
theorem witness_ClaimsAndSummariesAreTaken :
    (Arrives waitingS ⟨9, 4⟩ 9 4 ∧ waitingS.bus.station = .active ∧ pickForClaim waitingS 9 0 = some (0, call .waiting) ∧
      waitingS.ordinaryRoom ≠ 0 ∧ pickForClaim base 9 0 = none ∧ (inStation (.joining 1030) waitingS).bus.station ≠ .active) ∧
    (Arrives claimingS ⟨9, 4⟩ 9 4 ∧ claimingS.claimOf 7 = some ⟨7, 9, 0, 1000⟩ ∧ (claimingS.agent 7).state = .claiming 900 ∧
      claimingS.claimOf 8 = none) ∧
    (∀ e ∈ [(⟨0, 48, 35495, 64, 65535⟩ : Entry)], EntryInRange e) ∧
    (peerEntry (peerS 5 base) 9 0).best = 5 ∧ (peerEntry (peerS 35495 base) 9 0).best = 35495 :=
  ⟨⟨⟨rfl, rfl, by decide, rfl, Or.inr rfl⟩, rfl, by decide +kernel, by decide +kernel, by decide +kernel, nofun⟩,
    ⟨⟨rfl, rfl, by decide, rfl, Or.inr rfl⟩, by decide +kernel, claiming7.2, by decide +kernel⟩,
    fun e h => by rw [List.mem_singleton] at h; subst h; unfold EntryInRange; decide, by decide +kernel, by decide +kernel⟩

/-! Figures and invariants. -/

/-- The upper end of R52, the clamp at its lower end, the thresholds of R59, and spoken values of three lengths. -/
theorem witness_FiguresFollowTheArithmetic : scoreOf 15 2047 0 0 15 15 = 35495 ∧ scoreOf 1 0 1000 255 0 0 = 1 ∧
    bucket 59 (60, 180, 600) = 1 ∧ bucket 60 (60, 180, 600) = 2 ∧ bucket 180 (60, 180, 600) = 3 ∧ bucket 600 (60, 180, 600) = 4 ∧
    spokenDigits 0 = [0] ∧ spokenDigits 10 = [1, 0] ∧ spokenDigits 100 = [1, 0, 0] ∧ spokenDigits 999 = [9, 9, 9] ∧
    (readyS.agent 7).state = .ready 900 ∧ (base.agent 7).state.since = none ∧ State.reset.cfg = none ∧ base.cfg ≠ none ∧
    (readyS.agent 7).members = [] ++ ⟨0, 9⟩ :: [] ∧ waitingS.queue 0 = 0 :: [] ∧ base.queue 0 = [] ∧ base.peers.rows[9] = none ∧
    ewt 64 3600 0 = 5999 ∧ ewt 1 180 0 = 180 := by decide +kernel

theorem witness_FramesReadBackFromTheLine : BodyInRange (.claim 15 14 47 35495) ∧
    receiveBytes (Frame.bytes ⟨14, 15, .claim 15 14 47 35495⟩) = some ⟨14, 15, .claim 15 14 47 35495⟩ ∧
    (Frame.mk 4 15 (.summary [])).source ≠ (Frame.mk 9 15 (.summary [])).source ∧ base.bus.line = none ∧
    sendingS.bus.line = some ⟨4, 9, .cancel theirs⟩ :=
  ⟨Nat.le_refl _, by decide +kernel, by decide, rfl, by decide +kernel⟩

theorem witness_StepKeepsBounded : Bounded base := by unfold Bounded; decide +kernel
theorem witness_StepKeepsCountersBounded : CountersBounded base := by unfold CountersBounded; decide +kernel
theorem witness_StepKeepsFifosFit : FifosFit (readS 3) :=
  ⟨by decide +kernel, fun r h => by cases h; decide +kernel⟩
theorem witness_StepKeepsBindingsAgree : BindingsAgree alertingS := alerting_bindingsAgree
theorem witness_StepKeepsQueuesAgree : QueuesAgree waitingS := waiting_queuesAgree
/-- A frame in hand and on the line. -/
theorem witness_StepKeepsSendersAgree : SendersAgree (offeringS 0) ∧ (offeringS 0).bus.line ≠ none := by
  refine ⟨⟨nofun, fun h => absurd rfl h, fun _ => rfl, nofun, nofun, fun f h => ?_, fun l h => ?_, fun f h => ?_⟩, nofun⟩
  · have : f = ⟨9, .offer ours 0 2 1 0 0⟩ := List.mem_singleton.1 h
    subst this; trivial
  · cases h; exact ⟨rfl, rfl⟩
  · cases h; exact ⟨rfl, .ordinary, rfl, trivial, rfl⟩

/-- A step from each of these states answers a next state. -/
theorem witness_steps : step { base with pending := [.decisecond] } = .next base ∧ step base = .next base := ⟨rfl, rfl⟩

end Sys2Proof.Tests
end

section
/-! PROOFS of the agent key events (R5, R6, R9 to R12). First what the shared operations of an agent event do, in the
terms of the statements; then each event by the state of its record; then the obligations, which put the two together. -/

namespace Sys2Proof.Machine

/-! ### An event on the Shelf Port -/

/-- A field out of its range is answered REFUSED_RANGE, and nothing else changes (R4 step 3). -/
theorem event_agentEvent_refusedRange {s : State} (h : TakesEvents s) (p : Position) (fields : State → Bool)
    (act : Position → State → State) (n : Nat) (outOfRange : fields (raised s) = false) :
    event (agentEvent n p.val fields act) s = .next (answered s (clockedOut n [2])) := by
  obtain ⟨inService, rises⟩ := h
  have serving : (raised s).outOfService = false := inService
  have refused : ((raised s).answer .refusedRange).clockOut n = answered s (clockedOut n [2]) := rfl
  simp [event_shelfEvent rises, agentEvent, serving, outOfRange, refused]

theorem refusedState_clockOut (s : State) (n : Nat) :
    ((raised s).answer .refusedState).clockOut n = answered s (clockedOut n [1]) := rfl

theorem taken_clockOut (s : State) (n : Nat) : (s.answer .taken).clockOut n = s.drive (clockedOut n [0]) := rfl

theorem alterAgent_agent_self (s : State) (p : Position) (f : Agent → Agent) : (s.alterAgent p f).agent p = f (s.agent p) :=
  alter_get_self ..

/-- An update of one record that keeps its change mark makes no cause pending (R172, R175). -/
theorem attend_answered_altered (s : State) (p : Position) (f : Agent → Agent) (bytes : List Byte)
    (keeps : (f (s.agent p)).changed = (s.agent p).changed) :
    attend s (answered { s with agents := alter s.agents p f } bytes) =
      answered { s with agents := alter s.agents p f } bytes := by
  refine attend_same rfl rfl rfl rfl rfl fun q => ?_
  have record : (answered { s with agents := alter s.agents p f } bytes).agent q =
      if p = q then f (s.agent p) else s.agent q := State.alterAgent_agent s p q f
  rw [record]
  split
  · next same => rw [keeps, same]
  · rfl

/-! ### What an agent leaves behind, and what it becomes (R7, R12, R20) -/

/-- A record in WRAP or WRAP_OVER completes its wrap. -/
theorem windUp_of_work {s : State} {p : Position} {w : WrapWork} (h : (s.agent p).state.work = some w) :
    windUp p s = wrapCompleted p w s := by
  rw [← completeWrap_completed]
  unfold windUp
  cases hst : (s.agent p).state <;> simp_all [AgentState.work]

theorem windUp_of_claiming {s : State} {p : Position} {t : Nat} (h : (s.agent p).state = .claiming t) :
    windUp p s = claimRemoved p s := by
  simp only [windUp, h, removeClaim_removed]

/-- With neither a wrap nor a claim there is nothing to wind up. -/
theorem windUp_of_idle {s : State} {p : Position} (noWrap : (s.agent p).state.work = none)
    (noClaim : ∀ t, (s.agent p).state ≠ .claiming t) : windUp p s = s := by
  unfold windUp
  cases hst : (s.agent p).state <;> simp_all [AgentState.work]

/-- Winding up does not read or change the transaction. -/
theorem windUp_raised (p : Position) (s : State) : windUp p (raised s) = raised (windUp p s) := by
  have same : (raised s).agent p = s.agent p := rfl
  unfold windUp
  rw [same]
  cases (s.agent p).state <;> rfl

theorem becomeReady_enters (p : Position) (s : State) :
    becomeReady p s = attemptAgent true p (entersReady p s.now s) := by
  rw [becomeReady, enter_ready]

/-- A completed wrap leaves station time, so the record is READY since the same moment. -/
theorem becomeReady_wrapCompleted (p : Position) (w : WrapWork) (s : State) :
    becomeReady p (wrapCompleted p w s) = attemptAgent true p (entersReady p s.now (wrapCompleted p w s)) :=
  becomeReady_enters p _

/-! ### AGENT_LOGIN (R5) -/

/-- A membership as the shelf processor spells it. -/
def Membership.pair (x : Membership) : Nat × Nat := (x.group.val, x.proficiency)

theorem Membership.pair_injective : Function.Injective Membership.pair := by
  rintro ⟨g, n⟩ ⟨g', n'⟩ h
  simpa [Membership.pair, Fin.ext_iff] using h

/-- An entry reads as the membership it spells, when the group is defined and the proficiency is 1..15. -/
theorem memberIn_eq_some_iff (s : State) (m : Nat × Nat) (x : Membership) :
    memberIn s m = some x ↔ x.pair = m ∧ s.defines x.group = true ∧ 1 ≤ x.proficiency ∧ x.proficiency ≤ 15 := by
  obtain ⟨g, n⟩ := m
  obtain ⟨g', n'⟩ := x
  by_cases small : g < 16
  · simp only [memberIn, inRange, small, dite_true, Option.bind_eq_bind, Option.bind_some, Membership.pair,
      Option.ite_none_right_eq_some, Option.some.injEq, Membership.mk.injEq, Prod.mk.injEq]
    constructor
    · rintro ⟨inRange, rfl, rfl⟩
      exact ⟨⟨rfl, rfl⟩, inRange⟩
    · rintro ⟨⟨rfl, rfl⟩, inRange⟩
      exact ⟨inRange, rfl, rfl⟩
  · have misspelled : (⟨g', n'⟩ : Membership).pair ≠ (g, n) := fun h => by
      cases h
      exact small g'.isLt
    simp [memberIn, inRange, small, misspelled]

/-- Reading a list succeeds on its memberships exactly, each of a defined group and in range. -/
theorem mapM_memberIn_eq_some_iff (s : State) (ms : List (Nat × Nat)) (list : List Membership) :
    ms.mapM (memberIn s) = some list ↔
      list.map Membership.pair = ms ∧
        ∀ x ∈ list, s.defines x.group = true ∧ 1 ≤ x.proficiency ∧ x.proficiency ≤ 15 := by
  induction ms generalizing list with
  | nil => cases list <;> simp
  | cons m ms ih =>
    cases list with
    | nil => simp [Option.bind_eq_some_iff]
    | cons x list =>
      have readEach : (m :: ms).mapM (memberIn s) = some (x :: list) ↔
          memberIn s m = some x ∧ ms.mapM (memberIn s) = some list := by
        simp [Option.bind_eq_some_iff]
      rw [readEach, memberIn_eq_some_iff, ih]
      simp only [List.map_cons, List.cons.injEq, List.forall_mem_cons]
      tauto

/-- The range test in the terms of the memberships: numbers of a group are equal where the groups are (R5). -/
theorem loginInRange_map_pair (s : State) (list : List Membership) :
    LoginInRange s (list.map Membership.pair) ↔ 1 ≤ list.length ∧ list.length ≤ 4 ∧ (list.map Membership.group).Nodup ∧
      ∀ x ∈ list, s.defines x.group = true ∧ 1 ≤ x.proficiency ∧ x.proficiency ≤ 15 := by
  have numbers : (list.map Membership.pair).map Prod.fst = (list.map Membership.group).map Fin.val := by
    simp [Membership.pair, Function.comp_def]
  have named : ∀ x : Membership, (∃ g : Group, g.val = x.pair.1 ∧ s.defines g = true) ↔ s.defines x.group = true :=
    fun x => ⟨fun ⟨g, same, defined⟩ => Fin.ext same ▸ defined, fun defined => ⟨x.group, rfl, defined⟩⟩
  simp only [LoginInRange, numbers, List.nodup_map_iff Fin.val_injective, List.length_map, List.forall_mem_map, named]
  simp only [Membership.pair]
  refine and_congr_right fun _ => and_congr_right fun _ => and_congr_right fun _ => forall₂_congr fun _ _ => ?_
  tauto

/-- The memberships that are stored are those the list spells, and they can be read when the list is in range (R5). -/
theorem membersIn_eq_some_iff (s : State) (ms : List (Nat × Nat)) (list : List Membership) :
    membersIn s ms = some list ↔ list.map Membership.pair = ms ∧ LoginInRange s ms := by
  have readAll : membersIn s ms = some list ↔
      ms.mapM (memberIn s) = some list ∧ 1 ≤ ms.length ∧ ms.length ≤ 4 ∧ (list.map Membership.group).Nodup := by
    unfold membersIn
    cases ms.mapM (memberIn s) with
    | none => simp
    | some read =>
      simp only [Option.ite_none_right_eq_some, Option.some.injEq]
      exact ⟨fun ⟨bounds, same⟩ => ⟨same, same ▸ bounds⟩, fun ⟨same, bounds⟩ => ⟨same ▸ bounds, same⟩⟩
  rw [readAll, mapM_memberIn_eq_some_iff, and_assoc]
  refine and_congr_right fun spelled => ?_
  subst spelled
  rw [loginInRange_map_pair, List.length_map]
  tauto

/-- A list in range spells memberships. -/
theorem exists_members_of_inRange {s : State} {ms : List (Nat × Nat)} (h : LoginInRange s ms) :
    ∃ list : List Membership, list.map Membership.pair = ms := by
  obtain ⟨_, _, _, each⟩ := h
  have spelled : ms ∈ Set.range (List.map Membership.pair) := by
    rw [Set.range_list_map]
    intro m hm
    obtain ⟨_, _, g, hg, _⟩ := each m hm
    exact ⟨⟨g, m.2⟩, Prod.ext hg rfl⟩
  exact spelled

theorem membersIn_isSome_iff (s : State) (ms : List (Nat × Nat)) : (membersIn s ms).isSome = true ↔ LoginInRange s ms := by
  rw [Option.isSome_iff_exists]
  constructor
  · rintro ⟨list, h⟩
    exact ((membersIn_eq_some_iff s ms list).1 h).2
  · intro h
    obtain ⟨list, spelled⟩ := exists_members_of_inRange h
    exact ⟨list, (membersIn_eq_some_iff s ms list).2 ⟨spelled, h⟩⟩

theorem exec_agentLogin {s : State} (h : TakesEvents s) (p : Position) (ms : List (Nat × Nat)) (z : Nat)
    (inRange : LoginInRange s ms) :
    exec (.agentLogin p.val ⟨ms, z⟩) s = .next (attend s ((loginEvent ms p (raised s)).clockOut z)) :=
  event_agentEvent h p _ _ z ((membersIn_isSome_iff s ms).2 inRange)

theorem exec_agentLogin_refusedRange {s : State} (h : TakesEvents s) (p : Position) (ms : List (Nat × Nat)) (z : Nat)
    (outOfRange : ¬ LoginInRange s ms) :
    exec (.agentLogin p.val ⟨ms, z⟩) s = .next (answered s (clockedOut z [2])) :=
  event_agentEvent_refusedRange h p _ _ z
    (Bool.eq_false_iff.2 fun isSome => outOfRange ((membersIn_isSome_iff s ms).1 isSome))

theorem loginEvent_of_loggedOut {s : State} {p : Position} {ms : List (Nat × Nat)} {list : List Membership}
    (read : membersIn s ms = some list) (h : (s.agent p).state = .loggedOut) :
    loginEvent ms p s = (login p list s).answer .taken := by
  simp only [loginEvent, read, h]

theorem loginEvent_refused {s : State} {p : Position} (ms : List (Nat × Nat)) (h : (s.agent p).state ≠ .loggedOut) :
    loginEvent ms p s = s.answer .refusedState := by
  unfold loginEvent
  split
  · next loggedOut => exact absurd loggedOut h
  · rfl

/-- What a taken AGENT_LOGIN stores. -/
theorem login_eq (p : Position) (list : List Membership) (s : State) :
    login p list s = { enters p (.notReady 0) s with
      agents := alter s.agents p fun a =>
        { a with
          state := .notReady 0, members := list, talkS := 0, extensionUsed := false, busyCur := 0, busyPrev := 0
          debtCur := 0, debtPrev := 0, changed := true, deferred := false } } := by
  simp only [login, enter_enters p (.notReady 0) s rfl rfl, State.alterAgent, enters, alter_alter]

/-! ### AGENT_LOGOUT (R12) -/

/-- The record has left the session: LOGGED_OUT without memberships. -/
def sessionEnded (p : Position) (s : State) : State :=
  { enters p .loggedOut s with
    agents := alter s.agents p fun a => { a with state := .loggedOut, members := [], changed := true, deferred := false } }

theorem logout_sessionEnded (p : Position) (s : State) : logout p s = sessionEnded p (windUp p s) := by
  simp only [logout, enter_enters p .loggedOut _ rfl rfl, State.alterAgent, enters, alter_alter, sessionEnded]

theorem exec_agentLogout {s : State} (h : TakesEvents s) (p : Position) (z : Nat) :
    exec (.agentLogout ⟨p.val, z⟩) s = .next (attend s ((logoutEvent p (raised s)).clockOut z)) :=
  event_agentEvent h p noFields logoutEvent z rfl

/-- A logged-in record without a call takes the event. -/
theorem logoutEvent_taken {s : State} {p : Position} (loggedIn : (s.agent p).state ≠ .loggedOut)
    (unbound : (s.agent p).state.binding = none) :
    logoutEvent p s = (sessionEnded p (windUp p s)).answer .taken := by
  rw [← logout_sessionEnded]
  unfold logoutEvent
  cases hst : (s.agent p).state <;> simp_all [AgentState.binding]

theorem logoutEvent_refused {s : State} {p : Position}
    (h : (s.agent p).state = .loggedOut ∨ (s.agent p).state.binding.isSome = true) :
    logoutEvent p s = s.answer .refusedState := by
  unfold logoutEvent
  cases hst : (s.agent p).state <;> simp_all [AgentState.binding]

/-! ### AGENT_READY (R6) -/

theorem exec_agentReady {s : State} (h : TakesEvents s) (p : Position) (z : Nat) :
    exec (.agentReady ⟨p.val, z⟩) s = .next (attend s ((readyEvent p (raised s)).clockOut z)) :=
  event_agentEvent h p noFields readyEvent z rfl

theorem readyEvent_of_notReady {s : State} {p : Position} {reason : Nat} (h : (s.agent p).state = .notReady reason) :
    readyEvent p s = (attemptAgent true p (entersReady p s.now s)).answer .taken := by
  have idle : windUp p s = s := windUp_of_idle (by simp [h, AgentState.work]) (by simp [h])
  simp only [readyEvent, h, idle, becomeReady_enters]

theorem readyEvent_of_work {s : State} {p : Position} {w : WrapWork} (h : (s.agent p).state.work = some w) :
    readyEvent p s = (attemptAgent true p (entersReady p s.now (wrapCompleted p w s))).answer .taken := by
  have ready : becomeReady p (windUp p s) = attemptAgent true p (entersReady p s.now (wrapCompleted p w s)) := by
    rw [windUp_of_work h, becomeReady_wrapCompleted]
  rw [← ready]
  unfold readyEvent
  cases hst : (s.agent p).state <;> simp_all [AgentState.work]

theorem readyEvent_of_available {s : State} {p : Position} (h : (s.agent p).state.available = true) :
    readyEvent p s = s.answer .taken := by
  unfold readyEvent
  cases hst : (s.agent p).state <;> simp_all [AgentState.available]

theorem readyEvent_refused {s : State} {p : Position}
    (h : (s.agent p).state = .loggedOut ∨ (s.agent p).state.binding.isSome = true) :
    readyEvent p s = s.answer .refusedState := by
  unfold readyEvent
  cases hst : (s.agent p).state <;> simp_all [AgentState.binding]

/-! ### AGENT_CLEAR (R9) -/

theorem exec_agentClear {s : State} (h : TakesEvents s) (p : Position) (z : Nat) :
    exec (.agentClear ⟨p.val, z⟩) s = .next (attend s ((clearEvent p (raised s)).clockOut z)) :=
  event_agentEvent h p noFields clearEvent z rfl

theorem clearEvent_of_talking {s : State} {p : Position} {b : Binding} (h : (s.agent p).state = .talking b) :
    clearEvent p s = (clear p b.group s).answer .taken := by
  simp only [clearEvent, h]

theorem clearEvent_refused {s : State} {p : Position} (h : ∀ b, (s.agent p).state ≠ .talking b) :
    clearEvent p s = s.answer .refusedState := by
  unfold clearEvent
  cases hst : (s.agent p).state <;> simp_all

/-- The extension of the coming wrap is unused (R9). -/
def extensionCleared (p : Position) (s : State) : State :=
  { s with agents := alter s.agents p fun a => { a with extensionUsed := false } }

theorem clear_of_budget {s : State} (p : Position) {g : Group} (h : 0 < (s.groupRec g).wrapBudget) :
    clear p g s = enters p (.wrap ⟨g, 0, 0⟩ (s.now + 10 * (s.groupRec g).wrapBudget)) (extensionCleared p s) := by
  simp only [clear, State.alterAgent_groupRec, h, if_true]
  exact enter_enters p _ _ rfl rfl

theorem clear_of_autoReady {s : State} (p : Position) {g : Group} (h : (s.groupRec g).wrapBudget = 0)
    (auto : (s.groupRec g).autoReady = true) :
    clear p g s =
      attemptAgent true p (entersReady p s.now (wrapCompleted p ⟨g, 0, 0⟩ (extensionCleared p s))) := by
  simp only [clear, State.alterAgent_groupRec, h, auto, Nat.lt_irrefl, if_false, if_true, completeWrap_completed,
    becomeReady_enters]
  rfl

theorem clear_of_manual {s : State} (p : Position) {g : Group} (h : (s.groupRec g).wrapBudget = 0)
    (manual : (s.groupRec g).autoReady = false) :
    clear p g s = enters p (.wrapOver ⟨g, 0, 0⟩ s.now) (extensionCleared p s) := by
  simp only [clear, State.alterAgent_groupRec, h, manual, Nat.lt_irrefl, if_false, Bool.false_eq_true]
  exact enter_enters p _ _ rfl rfl

/-! ### WRAP_DONE (R10) -/

theorem exec_wrapDone {s : State} (h : TakesEvents s) (p : Position) (z : Nat) :
    exec (.wrapDone ⟨p.val, z⟩) s = .next (attend s ((wrapDoneEvent p (raised s)).clockOut z)) :=
  event_agentEvent h p noFields wrapDoneEvent z rfl

theorem wrapDoneEvent_of_work {s : State} {p : Position} {w : WrapWork} (h : (s.agent p).state.work = some w) :
    wrapDoneEvent p s = (attemptAgent true p (entersReady p s.now (wrapCompleted p w s))).answer .taken := by
  have ready : becomeReady p (completeWrap p w s) = attemptAgent true p (entersReady p s.now (wrapCompleted p w s)) := by
    rw [completeWrap_completed, becomeReady_wrapCompleted]
  rw [← ready]
  unfold wrapDoneEvent
  cases hst : (s.agent p).state <;> simp_all [AgentState.work]

theorem wrapDoneEvent_refused {s : State} {p : Position} (h : (s.agent p).state.work = none) :
    wrapDoneEvent p s = s.answer .refusedState := by
  unfold wrapDoneEvent
  cases hst : (s.agent p).state <;> simp_all [AgentState.work]

/-! ### WRAP_EXTEND (R11) -/

theorem exec_wrapExtend {s : State} (h : TakesEvents s) (p : Position) (z : Nat) :
    exec (.wrapExtend ⟨p.val, z⟩) s = .next (attend s ((wrapExtendEvent p (raised s)).clockOut z)) :=
  event_agentEvent h p noFields wrapExtendEvent z rfl

theorem wrapExtendEvent_refused {s : State} {p : Position}
    (h : (s.agent p).extensionUsed = true ∨ (s.agent p).state.work = none) :
    wrapExtendEvent p s = s.answer .refusedState := by
  unfold wrapExtendEvent
  cases hst : (s.agent p).state <;> simp_all [AgentState.work]

theorem wrapExtendEvent_taken {s : State} {p : Position} {w : WrapWork} (work : (s.agent p).state.work = some w)
    (unused : (s.agent p).extensionUsed = false) : wrapExtendEvent p s = (extendWrap p s).answer .taken := by
  unfold wrapExtendEvent
  cases hst : (s.agent p).state <;> simp_all [AgentState.work]

/-- The extension of this wrap is spent (R11). -/
def extensionSpent (p : Position) (s : State) : State :=
  { s with agents := alter s.agents p fun a => { a with extensionUsed := true } }

theorem extendWrap_of_wrap {s : State} {p : Position} {w : WrapWork} {e : Nat} (h : (s.agent p).state = .wrap w e) :
    extendWrap p s = { s with
      agents := alter s.agents p fun a =>
        { a with extensionUsed := true, state := .wrap w (e + 10 * (s.groupRec w.group).extension) } } := by
  simp only [extendWrap, alterAgent_agent_self, h, State.alterAgent_groupRec]
  simp only [State.alterAgent, alter_alter]

theorem extendWrap_of_wrapOver {s : State} {p : Position} {w : WrapWork} {t : Nat}
    (h : (s.agent p).state = .wrapOver w t) (extension : 0 < (s.groupRec w.group).extension) :
    extendWrap p s = enters p (.wrap w (s.now + 10 * (s.groupRec w.group).extension)) (extensionSpent p s) := by
  simp only [extendWrap, alterAgent_agent_self, h, State.alterAgent_groupRec, extension, if_true]
  exact enter_enters p _ _ rfl rfl

theorem extendWrap_of_wrapOver_zero {s : State} {p : Position} {w : WrapWork} {t : Nat}
    (h : (s.agent p).state = .wrapOver w t) (extension : (s.groupRec w.group).extension = 0) :
    extendWrap p s = extensionSpent p s := by
  simp only [extendWrap, alterAgent_agent_self, h, State.alterAgent_groupRec, extension, Nat.lt_irrefl, if_false]
  rfl

/-! ### The obligations -/

/-- Settles O9: what can be read of the list is what it spells, and login stores it. -/
theorem loginStoresTheMemberships : Obligations.LoginStoresTheMemberships := by
  intro s p ms z h
  refine ⟨exec_agentLogin_refusedRange h p ms z, fun inRange => ⟨fun loggedIn => ?_, fun list spelled loggedOut => ?_⟩⟩
  · rw [exec_agentLogin h p ms z inRange, loginEvent_refused (s := raised s) ms loggedIn, refusedState_clockOut,
      attend_answered]
  · have read : membersIn (raised s) ms = some list := (membersIn_eq_some_iff s ms list).2 ⟨spelled, inRange⟩
    rw [exec_agentLogin h p ms z inRange, loginEvent_of_loggedOut read loggedOut, taken_clockOut, login_eq]
    rfl

/-- Settles O10: by the state of the record, which says what `windUp` completes or removes. -/
theorem logoutEndsTheSession : Obligations.LogoutEndsTheSession := by
  intro s p z h
  refine ⟨sessionEnded p, fun _ => rfl, ?_⟩
  have taken {u : State} (left : windUp p s = u) (loggedIn : (s.agent p).state ≠ .loggedOut)
      (unbound : (s.agent p).state.binding = none) :
      exec (.agentLogout ⟨p.val, z⟩) s = .next (attend s (answered (sessionEnded p u) (clockedOut z [0]))) := by
    rw [exec_agentLogout h, logoutEvent_taken (s := raised s) loggedIn unbound, taken_clockOut, windUp_raised, left]
    rfl
  have refused (unbound : (s.agent p).state = .loggedOut ∨ (s.agent p).state.binding.isSome = true) :
      exec (.agentLogout ⟨p.val, z⟩) s = .next (answered s (clockedOut z [1])) := by
    rw [exec_agentLogout h, logoutEvent_refused (s := raised s) unbound, refusedState_clockOut, attend_answered]
  cases hst : (s.agent p).state with
  | loggedOut => exact refused (.inl hst)
  | alerting | talking => exact refused (.inr (by rw [hst]; rfl))
  | notReady | ready =>
    exact taken (windUp_of_idle (by rw [hst]; rfl) (by simp [hst])) (by simp [hst]) (by rw [hst]; rfl)
  | claiming => exact taken (windUp_of_claiming hst) (by simp [hst]) (by rw [hst]; rfl)
  | wrap | wrapOver => exact taken (windUp_of_work (by rw [hst]; rfl)) (by simp [hst]) (by rw [hst]; rfl)

/-- Settles O11, by the state of the record. -/
theorem readyMakesTheAgentAvailable : Obligations.ReadyMakesTheAgentAvailable := by
  intro s p z h
  have refused (unbound : (s.agent p).state = .loggedOut ∨ (s.agent p).state.binding.isSome = true) :
      exec (.agentReady ⟨p.val, z⟩) s = .next (answered s (clockedOut z [1])) := by
    rw [exec_agentReady h, readyEvent_refused (s := raised s) unbound, refusedState_clockOut, attend_answered]
  have unchanged (available : (s.agent p).state.available = true) :
      exec (.agentReady ⟨p.val, z⟩) s = .next (answered s (clockedOut z [0])) := by
    rw [exec_agentReady h, readyEvent_of_available (s := raised s) available, taken_clockOut, raised_drive,
      attend_answered]
  have entered {reason : Nat} (notReady : (s.agent p).state = .notReady reason) :
      exec (.agentReady ⟨p.val, z⟩) s = .next (attend s
        ((attemptAgent true p (entersReady p s.now (raised s))).drive (clockedOut z [0]))) := by
    rw [exec_agentReady h, readyEvent_of_notReady (s := raised s) notReady, taken_clockOut]
    rfl
  have wrapDone {w : WrapWork} (work : (s.agent p).state.work = some w) :
      exec (.agentReady ⟨p.val, z⟩) s = .next (attend s
        ((attemptAgent true p (entersReady p s.now (wrapCompleted p w (raised s)))).drive (clockedOut z [0]))) := by
    rw [exec_agentReady h, readyEvent_of_work (s := raised s) work, taken_clockOut]
    rfl
  cases hst : (s.agent p).state with
  | loggedOut => exact refused (.inl hst)
  | alerting | talking => exact refused (.inr (by rw [hst]; rfl))
  | ready | claiming => exact unchanged (by rw [hst]; rfl)
  | wrap | wrapOver => exact wrapDone (by rw [hst]; rfl)
  | notReady => exact entered hst

/-- Settles O14, by the wrap budget and the auto-ready flag of the bound group. -/
theorem clearStartsTheWrap : Obligations.ClearStartsTheWrap := by
  intro s p z h
  refine ⟨fun b talking => ?_, fun notTalking => ?_⟩
  · have taken : exec (.agentClear ⟨p.val, z⟩) s =
        .next (attend s ((clear p b.group (raised s)).drive (clockedOut z [0]))) := by
      rw [exec_agentClear h, clearEvent_of_talking (s := raised s) talking, taken_clockOut]
    refine ⟨extensionCleared p s, rfl, fun budget => ?_, fun zero auto => ?_, fun zero manual => ?_⟩
    · rw [taken, clear_of_budget (s := raised s) p budget]
      rfl
    · rw [taken, clear_of_autoReady (s := raised s) p zero auto]
      rfl
    · rw [taken, clear_of_manual (s := raised s) p zero manual]
      rfl
  · rw [exec_agentClear h, clearEvent_refused (s := raised s) notTalking, refusedState_clockOut, attend_answered]

/-- Settles O15, by whether the record has a wrap. -/
theorem wrapDoneMakesTheAgentReady : Obligations.WrapDoneMakesTheAgentReady := by
  intro s p z h
  have refused (noWrap : (s.agent p).state.work = none) :
      exec (.wrapDone ⟨p.val, z⟩) s = .next (answered s (clockedOut z [1])) := by
    rw [exec_wrapDone h, wrapDoneEvent_refused (s := raised s) noWrap, refusedState_clockOut, attend_answered]
  have taken {w : WrapWork} (work : (s.agent p).state.work = some w) :
      exec (.wrapDone ⟨p.val, z⟩) s = .next (attend s
        ((attemptAgent true p (entersReady p s.now (wrapCompleted p w (raised s)))).drive (clockedOut z [0]))) := by
    rw [exec_wrapDone h, wrapDoneEvent_of_work (s := raised s) work, taken_clockOut]
    rfl
  cases hst : (s.agent p).state with
  | wrap | wrapOver => exact taken (by rw [hst]; rfl)
  | loggedOut | notReady | ready | claiming | alerting | talking => exact refused (by rw [hst]; rfl)

/-- Settles O16: the flag and the wrap decide whether the extension is taken; only a return to WRAP sets the change mark. -/
theorem wrapExtendIsSpentOnce : Obligations.WrapExtendIsSpentOnce := by
  intro s p z h
  refine ⟨fun spent => ?_, fun unused => ⟨extensionSpent p s, rfl, fun w e wrap => ?_, fun w t overrun => ?_⟩⟩
  · rw [exec_wrapExtend h, wrapExtendEvent_refused (s := raised s) spent, refusedState_clockOut, attend_answered]
  · have work : (s.agent p).state.work = some w := by rw [wrap]; rfl
    rw [exec_wrapExtend h, wrapExtendEvent_taken (s := raised s) work unused, taken_clockOut,
      extendWrap_of_wrap (s := raised s) wrap]
    exact congrArg _ (attend_answered_altered s p _ _ rfl)
  · have work : (s.agent p).state.work = some w := by rw [overrun]; rfl
    rw [exec_wrapExtend h, wrapExtendEvent_taken (s := raised s) work unused, taken_clockOut]
    refine ⟨fun extension => ?_, fun zero => ?_⟩
    · rw [extendWrap_of_wrapOver (s := raised s) overrun extension]
      rfl
    · rw [extendWrap_of_wrapOver_zero (s := raised s) overrun zero]
      exact congrArg _ (attend_answered_altered s p _ _ rfl)

end Sys2Proof.Machine
end

section
/-! PROOFS of the trunk events and of the end of a wait (R30 to R37, R93, R99, R100). First the searches for a trunk, a free
slot, a voice and a bound agent, each as what it finds; then the end of a treatment and of a call's wait; then the place of a
call in its queue; then TRUNK_SEIZE and TRUNK_RELEASE, by what their checks find. -/

namespace Sys2Proof.Machine

/-! ### What the searches find (R13, R27, R31, R93) -/

/-- A search in ascending order finds the lowest-numbered entry that passes. -/
theorem find?_finRange_eq_some_iff {n : Nat} (p : Fin n → Bool) (i : Fin n) :
    (List.finRange n).find? p = some i ↔ p i = true ∧ ∀ j < i, p j = false := by
  rw [← Fin.find?_eq_find?_finRange, Fin.find?_eq_some_iff]

theorem find?_finRange_eq_none_iff {n : Nat} (p : Fin n → Bool) :
    (List.finRange n).find? p = none ↔ ∀ i, p i = false := by
  rw [← Fin.find?_eq_find?_finRange, Fin.find?_eq_none_iff]

theorem holdsTrunk_eq_true_iff (s : State) (t : Trunk) (c : Slot) :
    s.holdsTrunk t c = true ↔ ∃ k, s.callAt c = some k ∧ k.trunk = t := by
  unfold State.holdsTrunk
  cases s.callAt c <;> simp

theorem byTrunk_eq_none_iff (s : State) (t : Trunk) :
    s.byTrunk t = none ↔ ∀ c k, s.callAt c = some k → k.trunk ≠ t := by
  simp only [State.byTrunk, find?_finRange_eq_none_iff, ← Bool.not_eq_true, holdsTrunk_eq_true_iff, not_exists, not_and,
    ne_eq]

/-- The one record that holds the trunk is the one found (R27). -/
theorem byTrunk_of_holds {s : State} {t : Trunk} {c : Slot} {k : Call} (h : Holds s t c k) : s.byTrunk t = some c := by
  obtain ⟨occupied, trunk, one⟩ := h
  refine (find?_finRange_eq_some_iff _ c).2 ⟨(holdsTrunk_eq_true_iff s t c).2 ⟨k, occupied, trunk⟩, fun d below => ?_⟩
  rw [← Bool.not_eq_true, holdsTrunk_eq_true_iff]
  rintro ⟨j, held, same⟩
  exact below.ne (one d j held same)

theorem freeSlot_eq_none_iff (s : State) : s.freeSlot = none ↔ ∀ c, s.callAt c ≠ none := by
  simp [State.freeSlot]

theorem freeSlot_eq_some_iff (s : State) (c : Slot) :
    s.freeSlot = some c ↔ s.callAt c = none ∧ ∀ d < c, s.callAt d ≠ none := by
  simp [State.freeSlot, find?_finRange_eq_some_iff, Option.isSome_iff_ne_none]

theorem voiceOf_eq_none_iff (s : State) (c : Slot) : voiceOf c s = none ↔ ∀ v : Voice, s.treat.voices[v] ≠ some c := by
  simp [voiceOf]

theorem voiceOf_eq_some_iff (s : State) (c : Slot) (v : Voice) :
    voiceOf c s = some v ↔ s.treat.voices[v] = some c ∧ ∀ w < v, s.treat.voices[w] ≠ some c := by
  simp [voiceOf, find?_finRange_eq_some_iff]

theorem boundTo_of_alerting {a : Agent} {since d : Nat} {b : Binding} (h : a.state = .alerting since b d) :
    a.boundTo b.ref = true := by
  simp [Agent.boundTo, h, AgentState.binding]

/-- No two agents are bound to one reference, so the bound agent is the one found (R13). -/
theorem boundAgent_of_boundTo {s : State} {p : Position} {r : CallRef} (agree : BindingsAgree s)
    (bound : (s.agent p).boundTo r = true) : s.boundAgent r = some p := by
  obtain ⟨one, -, -⟩ := agree
  refine (find?_finRange_eq_some_iff _ p).2 ⟨bound, fun q below => ?_⟩
  rw [← Bool.not_eq_true]
  exact fun other => below.ne (one q p r other bound)

/-! ### The end of a treatment (R93, R99, R100) -/

theorem endTreatment_of_none {s : State} {c : Slot} (h : s.contextAt c = none) : endTreatment c s = s := by
  simp only [endTreatment, h]

theorem endTreatment_of_context {s : State} {c : Slot} {x : Context} (h : s.contextAt c = some x) :
    endTreatment c s = callBecomes c (fun k => { k with context := none }) (leaveBed x.heard (releaseVoice c
      { s with treat := { s.treat with holdList := s.treat.holdList.filter fun d => d ≠ c } })) := by
  simp only [endTreatment, h]
  rfl

theorem releaseVoice_of_none {s : State} {c : Slot} (h : voiceOf c s = none) : releaseVoice c s = s := by
  simp only [releaseVoice, h]

theorem releaseVoice_of_voice {s : State} {c : Slot} {v : Voice} (h : voiceOf c s = some v) :
    releaseVoice c s = stopStream (voiceStream v) (voiceHeld v none s) := by
  simp only [releaseVoice, h]
  rfl

theorem leaveBed_bed (b : Bed) (s : State) :
    leaveBed (.bed b) s = if s.treat.listeners[b] = 1 then stopStream (bedStream b) (listenersBecome b (fun l => l - 1) s)
      else listenersBecome b (fun l => l - 1) s := rfl

theorem leaveBed_of_no_bed {h : HeardOn} (s : State) (noBed : ∀ b, h ≠ .bed b) : leaveBed h s = s := by
  cases h with
  | bed b => exact absurd rfl (noBed b)
  | nothing | voice | silence => rfl

/-! ### The figures of a group (R46) -/

theorem countOffered_counts (g : Group) (s : State) :
    countOffered g s = groupCounts g (fun n => { n with offeredIn := min 65535 (n.offeredIn + 1) }) s := by
  simp only [countOffered, count1_eq_min]
  rfl

theorem countAnsweredLocal_counts (g : Group) (s : State) :
    countAnsweredLocal g s = groupCounts g (fun n => { n with answeredLocal := min 65535 (n.answeredLocal + 1) }) s := by
  simp only [countAnsweredLocal, count1_eq_min]
  rfl

theorem countAnsweredByPeers_counts (g : Group) (s : State) :
    countAnsweredByPeers g s = groupCounts g (fun n => { n with answeredByPeers := min 65535 (n.answeredByPeers + 1) }) s := by
  simp only [countAnsweredByPeers, count1_eq_min]
  rfl

theorem countAbandoned_counts (g : Group) (s : State) :
    countAbandoned g s = groupCounts g (fun n => { n with abandoned := min 65535 (n.abandoned + 1) }) s := by
  simp only [countAbandoned, count1_eq_min]
  rfl

theorem groupCounts_id (g : Group) (s : State) : groupCounts g (fun n => n) s = s := by
  simp only [groupCounts, alter_id (f := fun n => n) s.counts g rfl]

/-- What an answered call adds to the figures of its group, by its mark (R34). -/
def answerCounted (st : CallState) (n : GroupCounts) : GroupCounts :=
  match st with
  | .alertingLocal _ => { n with answeredLocal := min 65535 (n.answeredLocal + 1) }
  | .alertingRemote .. => { n with answeredByPeers := min 65535 (n.answeredByPeers + 1) }
  | .waiting | .offered .. | .connected => n

theorem countAnswer_counts (k : Call) (s : State) : countAnswer k s = groupCounts k.group (answerCounted k.state) s := by
  unfold countAnswer
  cases k.state with
  | alertingLocal => exact countAnsweredLocal_counts k.group s
  | alertingRemote => exact countAnsweredByPeers_counts k.group s
  | waiting | offered | connected => exact (groupCounts_id k.group s).symm

/-! ### CONNECTED and freed (R34, R36) -/

/-- The call has left its queue and its treatment has ended: what connecting and freeing have in common. -/
def waitEnded (c : Slot) (k : Call) (s : State) : State :=
  endTreatment c { s with queues := alter s.queues k.group fun q => q.filter fun d => d ≠ c }

/-- Dropping the watch expiry and changing the call do not meet: one is in the port, the other in the table. -/
theorem callBecomes_unawaited (c : Slot) (f : Call → Call) (w : RoomWait) (s : State) :
    callBecomes c f (unawaited w s) = unawaited w (callBecomes c f s) := rfl

theorem deferCall_unawaited (c : Slot) (b : Bool) (w : RoomWait) (s : State) :
    (unawaited w s).deferCall c b = unawaited w (s.deferCall c b) := rfl

theorem connect_eq {s : State} {c : Slot} {k : Call} (h : s.callAt c = some k) :
    connect c s = groupCounts k.group (answerCounted k.state) (unawaited (.watch c) (callBecomesDeferred c false
      (fun k => { k with state := .connected, declined := Vector.replicate 15 false, divertPending := false })
      (waitEnded c k s))) := by
  have left : endTreatment c (leaveQueue k.group c s) = waitEnded c k s := rfl
  simp only [connect, h, left]
  rw [countAnswer_counts, markCall_other c .connected _ (by simp), alterCall_becomes, callBecomes_unawaited,
    callBecomes_callBecomes, deferCall_unawaited, deferCall_callBecomes]
  rfl

theorem freeCall_eq {s : State} {c : Slot} {k : Call} (h : s.callAt c = some k) :
    freeCall c s = unawaited (.divert c) (unawaited (.watch c)
      { waitEnded c k s with calls := alter (waitEnded c k s).calls c fun r => ⟨r.gen, false, none⟩ }) := by
  simp only [freeCall, h]
  rfl

/-! ### The place of a call in its queue (R37) -/

/-- Where the entries that pass stand before those that fail, the new one goes between them. -/
theorem insertAfterLast_append {α : Type} {ok : α → Bool} (x : α) {ahead behind : List α}
    (pass : ∀ y ∈ ahead, ok y = true) (fail : ∀ y ∈ behind, ok y = false) :
    insertAfterLast ok x (ahead ++ behind) = ahead ++ x :: behind := by
  induction ahead with
  | nil =>
    have noneOk : behind.any ok = false := by simpa using fail
    cases behind with
    | nil => rfl
    | cons y ys => simp only [List.nil_append, insertAfterLast, noneOk, Bool.false_eq_true, if_false]
  | cons y ys ih =>
    obtain ⟨first, rest⟩ := List.forall_mem_cons.1 pass
    have someOk : (y :: (ys ++ behind)).any ok = true := by simp [first]
    simp only [List.cons_append, insertAfterLast, someOk, if_true, ih rest]

/-- Where no entry that passes stands behind one that fails, those after the first to fail all fail. -/
theorem eq_false_of_mem_dropWhile {α : Type} {ok : α → Bool} {l : List α}
    (ordered : l.Pairwise fun a b => ok b = true → ok a = true) : ∀ y ∈ l.dropWhile ok, ok y = false := by
  induction l with
  | nil => simp
  | cons x xs ih =>
    obtain ⟨before, later⟩ := List.pairwise_cons.1 ordered
    cases hx : ok x with
    | true =>
      rw [List.dropWhile_cons_of_pos hx]
      exact ih later
    | false =>
      rw [List.dropWhile_cons_of_neg (by simp [hx]), List.forall_mem_cons]
      refine ⟨hx, fun y behind => ?_⟩
      rw [← Bool.not_eq_true]
      exact fun passes => by simp [before y behind passes] at hx

theorem classAtMost_of_call {s : State} {d : Slot} {k : Call} (h : s.callAt d = some k) (P : Fin 4) :
    s.classAtMost P d = decide (k.priority ≤ P) := by
  simp only [State.classAtMost, h]

/-- A queue holds calls only (R37). -/
theorem exists_call_of_mem_queue {s : State} (agree : QueuesAgree s) {g : Group} {d : Slot} (h : d ∈ s.queue g) :
    ∃ k, s.callAt d = some k := by
  obtain ⟨-, queued, -⟩ := agree
  obtain ⟨k, held, -, -⟩ := (queued g d).1 h
  exact ⟨k, held⟩

/-- Priority classes never decrease from head to tail, so no call of a class up to `P` stands behind one above it (R37). -/
theorem queue_pairwise_classAtMost {s : State} (agree : QueuesAgree s) (g : Group) (P : Fin 4) :
    (s.queue g).Pairwise fun a b => s.classAtMost P b = true → s.classAtMost P a = true := by
  have ⟨_, _, ordered, _, _⟩ := agree
  refine (ordered g).imp_of_mem fun {a b} inA inB order => ?_
  obtain ⟨j, heldA⟩ := exists_call_of_mem_queue agree inA
  obtain ⟨k, heldB⟩ := exists_call_of_mem_queue agree inB
  rw [classAtMost_of_call heldA, classAtMost_of_call heldB, decide_eq_true_eq, decide_eq_true_eq]
  have notAbove : j.priority ≤ k.priority := by
    rcases order j k heldA heldB with below | ⟨same, -⟩
    · exact below.le
    · exact same.le
  exact notAbove.trans

/-- The calls of the queue that a new call of the class stands behind, and those it stands before (R37). -/
theorem queue_splits_at_class {s : State} (agree : QueuesAgree s) (g : Group) (P : Fin 4) :
    ∃ ahead behind : List Slot, s.queue g = ahead ++ behind ∧
      (∀ d ∈ ahead, ∃ k, s.callAt d = some k ∧ k.priority ≤ P) ∧
      ∀ d ∈ behind, ∃ k, s.callAt d = some k ∧ P < k.priority := by
  refine ⟨(s.queue g).takeWhile (s.classAtMost P), (s.queue g).dropWhile (s.classAtMost P),
    List.takeWhile_append_dropWhile.symm, fun d inAhead => ?_, fun d inBehind => ?_⟩
  · obtain ⟨k, held⟩ := exists_call_of_mem_queue agree ((List.takeWhile_sublist _).subset inAhead)
    have passes := List.mem_takeWhile_imp inAhead
    rw [classAtMost_of_call held, decide_eq_true_eq] at passes
    exact ⟨k, held, passes⟩
  · obtain ⟨k, held⟩ := exists_call_of_mem_queue agree ((List.dropWhile_sublist _).subset inBehind)
    have fails := eq_false_of_mem_dropWhile (queue_pairwise_classAtMost agree g P) d inBehind
    rw [classAtMost_of_call held, decide_eq_false_iff_not, not_le] at fails
    exact ⟨k, held, fails⟩

/-! ### TRUNK_SEIZE (R30 to R32) -/

theorem occupy_callAt (c d : Slot) (k : Call) (s : State) :
    (occupy c k s).callAt d = if c = d then some k else s.callAt d := by
  simp only [State.callAt, occupy, State.alterSlot, alter_get]
  split <;> rfl

/-- The slot was free, so the class of every other call reads as before. -/
theorem classAtMost_occupy {s : State} {c d : Slot} {j : Call} (free : s.callAt c = none) (held : s.callAt d = some j)
    (k : Call) (P : Fin 4) : (occupy c k s).classAtMost P d = decide (j.priority ≤ P) := by
  have other : c ≠ d := fun same => by simp [← same, free] at held
  exact classAtMost_of_call (by rw [occupy_callAt, if_neg other, held]) P

/-- The new call joins its queue behind the last of its class or a lower one (R37). -/
theorem joinQueue_occupy {s : State} {c : Slot} {k : Call} {ahead behind : List Slot} (free : s.callAt c = none)
    (queue : s.queue k.group = ahead ++ behind) (below : ∀ d ∈ ahead, ∃ j, s.callAt d = some j ∧ j.priority ≤ k.priority)
    (above : ∀ d ∈ behind, ∃ j, s.callAt d = some j ∧ k.priority < j.priority) :
    joinQueue c (occupy c k s) =
      { occupy c k s with queues := alter s.queues k.group fun _ => ahead ++ c :: behind } := by
  have held : (occupy c k s).callAt c = some k := by rw [occupy_callAt, if_pos rfl]
  have place : insertAfterLast ((occupy c k s).classAtMost k.priority) c (s.queue k.group) = ahead ++ c :: behind := by
    rw [queue]
    refine insertAfterLast_append c (fun d inAhead => ?_) fun d inBehind => ?_
    · obtain ⟨j, heldD, upTo⟩ := below d inAhead
      simpa [classAtMost_occupy free heldD] using upTo
    · obtain ⟨j, heldD, beyond⟩ := above d inBehind
      simpa [classAtMost_occupy free heldD] using beyond
  have joined : alter s.queues k.group (insertAfterLast ((occupy c k s).classAtMost k.priority) c) =
      alter s.queues k.group fun _ => ahead ++ c :: behind := alter_congr _ _ place
  simp only [joinQueue, held, ← joined]
  rfl

/-- What TRUNK_SEIZE records before the treatment and the attempt (R31). -/
theorem seize_eq {s : State} {c : Slot} {k : Call} {ahead behind : List Slot} (free : s.callAt c = none)
    (queue : s.queue k.group = ahead ++ behind) (below : ∀ d ∈ ahead, ∃ j, s.callAt d = some j ∧ j.priority ≤ k.priority)
    (above : ∀ d ∈ behind, ∃ j, s.callAt d = some j ∧ k.priority < j.priority) :
    seize c k s = attemptCall c (startTreatment c { s with
      calls := alter s.calls c fun r => ⟨r.gen + 1, false, some k⟩
      queues := alter s.queues k.group fun _ => ahead ++ c :: behind
      counts := alter s.counts k.group fun n => { n with offeredIn := min 65535 (n.offeredIn + 1) } }) := by
  rw [seize, joinQueue_occupy free queue below above, countOffered_counts]
  rfl

theorem seizeFields_eq_some_iff (s : State) (g p : Nat) (G : Group) (P : Fin 4) :
    seizeFields s g p = some (G, P) ↔ G.val = g ∧ P.val = p ∧ s.defines G = true := by
  by_cases smallGroup : g < 16
  · by_cases smallClass : p < 4
    · simp only [seizeFields, inRange, smallGroup, smallClass, dite_true, Option.bind_eq_bind, Option.bind_some,
        Option.ite_none_right_eq_some, Option.some.injEq, Prod.mk.injEq]
      constructor
      · rintro ⟨defined, rfl, rfl⟩
        exact ⟨rfl, rfl, defined⟩
      · rintro ⟨rfl, rfl, defined⟩
        exact ⟨defined, rfl, rfl⟩
    · have noClass : P.val ≠ p := fun same => smallClass (same ▸ P.isLt)
      simp [seizeFields, inRange, smallGroup, smallClass, noClass]
  · have noGroup : G.val ≠ g := fun same => smallGroup (same ▸ G.isLt)
    simp [seizeFields, inRange, smallGroup, noGroup]

theorem exec_trunkSeize {s : State} (h : NoRestart s) (t : Trunk) (g p z : Nat) (tag : Half) :
    exec (.trunkSeize t g p ⟨tag, z⟩) s = .next (attend s ((seizeEvent t g p tag (raised s)).clockOut z)) :=
  event_shelfEvent h z (seizeEvent t g p tag)

section
variable {s : State} {t : Trunk} {g p : Nat} {tag : Half}

theorem seizeEvent_refusedRange (serving : s.outOfService = false) (fields : seizeFields s g p = none) :
    seizeEvent t g p tag s = s.answer .refusedRange := by
  simp [seizeEvent, serving, fields]

theorem seizeEvent_refusedState (serving : s.outOfService = false) {G : Group} {P : Fin 4}
    (fields : seizeFields s g p = some (G, P)) {c : Slot} (held : s.byTrunk t = some c) :
    seizeEvent t g p tag s = s.answer .refusedState := by
  simp [seizeEvent, serving, fields, held]

theorem seizeEvent_refusedFull (serving : s.outOfService = false) {G : Group} {P : Fin 4}
    (fields : seizeFields s g p = some (G, P)) (unheld : s.byTrunk t = none) (full : s.freeSlot = none) :
    seizeEvent t g p tag s = s.answer .refusedFull := by
  simp [seizeEvent, serving, fields, unheld, full]

theorem seizeEvent_taken (serving : s.outOfService = false) {G : Group} {P : Fin 4}
    (fields : seizeFields s g p = some (G, P)) (unheld : s.byTrunk t = none) {c : Slot} (free : s.freeSlot = some c) :
    seizeEvent t g p tag s = (seize c (seizedCall s t G P tag) s).drive [0, BitVec.ofNat 8 c.val] := by
  simp only [seizeEvent, serving, fields, unheld, free, Bool.false_eq_true, if_false]
  rfl

end

/-- A TRUNK_SEIZE the checks refuse is answered with their outcome, and nothing else changes (R30). -/
theorem exec_trunkSeize_refused {s : State} (h : NoRestart s) {t : Trunk} {g p : Nat} {tag : Half} {o : OutcomeCode}
    (answer : seizeEvent t g p tag (raised s) = (raised s).answer o) (z : Nat) :
    exec (.trunkSeize t g p ⟨tag, z⟩) s = .next (answered s (clockedOut z [o.byte])) := by
  have cut : ((raised s).answer o).clockOut z = answered s (clockedOut z [o.byte]) := rfl
  rw [exec_trunkSeize h, answer, cut, attend_answered]

/-! ### TRUNK_RELEASE (R30, R35) -/

theorem exec_trunkRelease {s : State} (h : NoRestart s) (t : Trunk) (z : Nat) :
    exec (.trunkRelease ⟨t, z⟩) s = .next (attend s ((releaseEvent t (raised s)).clockOut z)) :=
  event_shelfEvent h z (releaseEvent t)

theorem releaseEvent_refusedState {s : State} {t : Trunk} (serving : s.outOfService = false)
    (unheld : s.byTrunk t = none) : releaseEvent t s = s.answer .refusedState := by
  simp [releaseEvent, serving, unheld]

section
variable {s : State} {t : Trunk} {c : Slot} {k : Call}

/-- An ALERTING-local call whose WITHDRAW has no entry is kept (R35). -/
theorem releaseEvent_refusedFull (serving : s.outOfService = false) (held : Holds s t c k)
    (alerts : k.state.alertsLocally = true) (full : s.free = 0) : releaseEvent t s = s.answer .refusedFull := by
  have ⟨occupied, _, _⟩ := held
  simp [releaseEvent, serving, byTrunk_of_holds held, occupied, alerts, full]

theorem releaseEvent_taken (serving : s.outOfService = false) (held : Holds s t c k)
    (fits : k.state.alertsLocally = false ∨ s.free ≠ 0) : releaseEvent t s = (releaseCall c k s).answer .taken := by
  have ⟨occupied, _, _⟩ := held
  have notFull : (k.state.alertsLocally && decide (s.free = 0)) = false := by
    rcases fits with elsewhere | room
    · simp [elsewhere]
    · simp [room]
  simp [releaseEvent, serving, byTrunk_of_holds held, occupied, notFull]

end

/-- The call has counted as abandoned (R35). -/
def abandonedCounted (g : Group) (s : State) : State :=
  groupCounts g (fun n => { n with abandoned := min 65535 (n.abandoned + 1) }) s

theorem releaseCall_of_connected {k : Call} (h : k.state = .connected) (c : Slot) (s : State) :
    releaseCall c k s = freeCall c s := by
  simp [releaseCall, releaseByState, h]

theorem releaseCall_of_unconnected {k : Call} (h : k.state ≠ .connected) (c : Slot) (s : State) :
    releaseCall c k s = freeCall c (releaseByState c k (abandonedCounted k.group s)) := by
  rw [releaseCall, if_neg h, countAbandoned_counts]
  rfl

theorem releaseCall_of_waiting {k : Call} (h : k.state = .waiting) (c : Slot) (s : State) :
    releaseCall c k s = freeCall c (abandonedCounted k.group s) := by
  rw [releaseCall_of_unconnected (by simp [h])]
  simp only [releaseByState, h]

theorem refOf_of_id {s : State} {me : Station} (h : s.bus.id = some me) (c : Slot) :
    s.refOf c = some ⟨me, c, (s.slotRec c).gen⟩ := by
  simp [State.refOf, h]

/-- The peer that has the call is sent CANCEL (R35). -/
theorem releaseCall_of_peer {k : Call} {q : Station}
    (h : (∃ d g, k.state = .offered q d g) ∨ ∃ a d, k.state = .alertingRemote q a d) {c : Slot} {s : State} {r : CallRef}
    (ref : s.refOf c = some r) :
    releaseCall c k s = freeCall c ((abandonedCounted k.group s).reply q (.cancel r)) := by
  have refNow : (abandonedCounted k.group s).refOf c = some r := ref
  rcases h with ⟨d, g, offered⟩ | ⟨a, d, alerting⟩
  · rw [releaseCall_of_unconnected (by simp [offered])]
    simp only [releaseByState, offered, refNow]
  · rw [releaseCall_of_unconnected (by simp [alerting])]
    simp only [releaseByState, alerting, refNow]

/-- The bound agent is withdrawn and is READY since the same moment, with a local-only attempt (R15). -/
theorem unbind_of_alerting {s : State} {p : Position} {since d : Nat} {b : Binding}
    (h : (s.agent p).state = .alerting since b d) (room : 0 < s.free) :
    unbind p s = attemptAgent false p (entersReady p since (placed [.withdraw p] s)) := by
  simp only [unbind, h, enter_ready, place_placed _ room]

/-- The agent that an ALERTING-local call is bound to is unbound (R35). -/
theorem releaseCall_of_alertingLocal {k : Call} {p : Position} (h : k.state = .alertingLocal p) {c : Slot} {s : State}
    {b : Binding} {since d : Nat} (agree : BindingsAgree s) (ref : s.refOf c = some b.ref)
    (alerting : (s.agent p).state = .alerting since b d) (room : 0 < s.free) :
    releaseCall c k s = freeCall c (attemptAgent false p
      (entersReady p since (placed [.withdraw p] (abandonedCounted k.group s)))) := by
  have bound : s.boundAgent b.ref = some p := boundAgent_of_boundTo agree (boundTo_of_alerting alerting)
  have holder : (abandonedCounted k.group s).holderOf c = some p := by
    have holderBefore : s.holderOf c = some p := by simp [State.holderOf, ref, bound]
    exact holderBefore
  rw [releaseCall_of_unconnected (by simp [h])]
  simp only [releaseByState, h, holder, unbind_of_alerting (s := abandonedCounted k.group s) alerting room]

/-! ### The obligations -/

/-- Settles O21: connecting and freeing end the wait alike; a treatment's end is its voice's and its bed's. -/
theorem connectingAndFreeingEndTheWait : Obligations.ConnectingAndFreeingEndTheWait := by
  refine ⟨fun s c k held => ⟨waitEnded c k s, rfl, connect_eq held, freeCall_eq held⟩,
    fun s c => ⟨endTreatment_of_none, fun x => endTreatment_of_context⟩,
    fun s c => ⟨fun noVoice => releaseVoice_of_none ((voiceOf_eq_none_iff s c).2 noVoice), fun v n voice lowest stream => ?_⟩,
    fun s b n stream => ⟨?_, fun h => leaveBed_of_no_bed s⟩⟩
  · have same : n = voiceStream v := Fin.ext stream
    rw [same, releaseVoice_of_voice ((voiceOf_eq_some_iff s c v).2 ⟨voice, lowest⟩)]
  · have same : n = bedStream b := Fin.ext stream
    rw [same, leaveBed_bed]

/-- Settles O20, by the state of the record that holds the trunk. -/
theorem trunkReleaseFreesTheRecord : Obligations.TrunkReleaseFreesTheRecord := by
  intro s t z ⟨inService, rises⟩
  have serving : (raised s).outOfService = false := inService
  refine ⟨fun unheld => ?_, fun c k held => ⟨abandonedCounted k.group (raised s), rfl, ?_⟩⟩
  · rw [exec_trunkRelease rises, releaseEvent_refusedState serving ((byTrunk_eq_none_iff s t).2 unheld),
      refusedState_clockOut, attend_answered]
  have heldNow : Holds (raised s) t c k := held
  have taken (fits : k.state.alertsLocally = false ∨ s.free ≠ 0) : exec (.trunkRelease ⟨t, z⟩) s =
      .next (attend s ((releaseCall c k (raised s)).drive (clockedOut z [0]))) := by
    rw [exec_trunkRelease rises, releaseEvent_taken serving heldNow fits, taken_clockOut]
  cases hst : k.state with
  | connected =>
    rw [taken (.inl (by rw [hst]; rfl)), releaseCall_of_connected hst]
  | waiting =>
    rw [taken (.inl (by rw [hst]; rfl)), releaseCall_of_waiting hst]
  | offered q d g =>
    intro me hasId
    rw [taken (.inl (by rw [hst]; rfl)), releaseCall_of_peer (.inl ⟨d, g, hst⟩) (refOf_of_id (s := raised s) hasId c)]
    rfl
  | alertingRemote q a d =>
    intro me hasId
    rw [taken (.inl (by rw [hst]; rfl)), releaseCall_of_peer (.inr ⟨a, d, hst⟩) (refOf_of_id (s := raised s) hasId c)]
    rfl
  | alertingLocal p =>
    refine ⟨fun full => ?_, fun r since b d room ref agree alerting named => ?_⟩
    · have refused : ((raised s).answer .refusedFull).clockOut z = answered s (clockedOut z [3]) := rfl
      rw [exec_trunkRelease rises, releaseEvent_refusedFull serving heldNow (by rw [hst]; rfl) full, refused, attend_answered]
    · subst named
      rw [taken (.inr room.ne'), releaseCall_of_alertingLocal (s := raised s) hst agree ref alerting room]

/-- Settles O18: the checks in order, and for a taken event the place the queue's order gives the call. -/
theorem seizeRecordsTheCall : Obligations.SeizeRecordsTheCall := by
  refine ⟨fun s t g p z tag takes => ?_, fun s t G P tag c z takes agree defined unheld free lowest => ?_⟩
  all_goals
    obtain ⟨inService, rises⟩ := takes
    have serving : (raised s).outOfService = false := inService
  · refine ⟨fun outOfRange => ?_, fun G P group priority defined => ?_⟩
    · have noFields : seizeFields s g p = none := Option.eq_none_iff_forall_ne_some.2 fun (G, P) fields => by
        obtain ⟨group, priority, defined⟩ := (seizeFields_eq_some_iff ..).1 fields
        exact Bool.false_ne_true ((outOfRange G P group priority).symm.trans defined)
      exact exec_trunkSeize_refused rises (seizeEvent_refusedRange serving noFields) z
    · have fields : seizeFields (raised s) g p = some (G, P) :=
        (seizeFields_eq_some_iff ..).2 ⟨group, priority, defined⟩
      refine ⟨fun ⟨c, k, occupied, trunk⟩ => ?_, fun unheld full => ?_⟩
      · have holds : s.byTrunk t ≠ none := fun h => (byTrunk_eq_none_iff s t).1 h c k occupied trunk
        obtain ⟨d, holder⟩ := Option.ne_none_iff_exists'.1 holds
        exact exec_trunkSeize_refused rises (seizeEvent_refusedState serving fields holder) z
      · exact exec_trunkSeize_refused rises (seizeEvent_refusedFull serving fields ((byTrunk_eq_none_iff s t).2 unheld)
          ((freeSlot_eq_none_iff s).2 full)) z
  · obtain ⟨ahead, behind, queue, below, above⟩ := queue_splits_at_class agree G P
    have fields : seizeFields (raised s) G.val P.val = some (G, P) := (seizeFields_eq_some_iff ..).2 ⟨rfl, rfl, defined⟩
    have recorded := seize_eq (s := raised s) (k := seizedCall (raised s) t G P tag) free queue below above
    refine ⟨ahead, behind, _, queue, below, above, rfl, ?_⟩
    rw [exec_trunkSeize rises, seizeEvent_taken serving fields ((byTrunk_eq_none_iff s t).2 unheld)
      ((freeSlot_eq_some_iff s c).2 ⟨free, lowest⟩), drive_clockOut, recorded]
    rfl

end Sys2Proof.Machine
end

section
/-! PROOFS of the call-side attempt (R64 to R67, R75). First which call is open to one, then what it decides between the best
peer and the best local agent, then what the attempt does with each decision. -/

namespace Sys2Proof.Machine

/-! ### The call that is attempted (R66) -/

theorem selectable_eq_some_iff (s : State) (c : Slot) (k : Call) :
    s.selectable c = some k ↔ s.callAt c = some k ∧ k.state = .waiting ∧ k.divertPending = false := by
  simp [State.selectable, Option.filter_eq_some_iff, Call.selectable]

theorem selectable_eq_none_iff (s : State) (c : Slot) :
    s.selectable c = none ↔ ∀ k, s.callAt c = some k → k.state ≠ .waiting ∨ k.divertPending = true := by
  simp [State.selectable, Option.filter_eq_none_iff, Call.selectable, imp_iff_not_or]

/-! ### The groups and the agents that may take the call (R13, R64) -/

theorem eligibleGroups_of_tier_two (s : State) {k : Call} (h : k.tier = 2) :
    s.eligibleGroups k = k.group :: (s.groupRec k.group).overflow.toList := by
  rw [State.eligibleGroups, if_pos h]

theorem eligibleGroups_of_tier_ne_two (s : State) {k : Call} (h : k.tier ≠ 2) : s.eligibleGroups k = [k.group] := by
  rw [State.eligibleGroups, if_neg h]

/-- A station without an ID has no reference that a record could be bound to. -/
theorem holderOf_eq_none_iff (s : State) (c : Slot) :
    s.holderOf c = none ↔ ∀ q me, s.bus.id = some me → (s.agent q).boundTo ⟨me, c, (s.slotRec c).gen⟩ = false := by
  cases hasId : s.bus.id with
  | none => simp [State.holderOf, State.refOf, hasId]
  | some me =>
    rw [State.holderOf, refOf_of_id hasId, Option.bind_some, State.boundAgent, find?_finRange_eq_none_iff]
    simp

/-! ### The decision (R67) -/

/-- L: the score of the best local agent, 0 for none (R67). -/
def localScore (s : State) (c : Slot) (k : Call) : Nat := ((bestLocal s c k).map Prod.snd).getD 0

section
variable {s : State} {c : Slot} {k : Call}

theorem localScore_of_agent {a : Position} {l : Nat} (h : bestLocal s c k = some (a, l)) : localScore s c k = l := by
  simp [localScore, h]

theorem localScore_of_none (h : bestLocal s c k = none) : localScore s c k = 0 := by
  simp [localScore, h]

/-- V is greater than L + M when it is whatever the local agent is, and with none. -/
theorem localScore_lt {v : Nat} (agent : ∀ a l, bestLocal s c k = some (a, l) → l + s.conf.margin < v)
    (noAgent : s.conf.margin < v) : localScore s c k + s.conf.margin < v := by
  cases best : bestLocal s c k with
  | none => rwa [localScore_of_none best, Nat.zero_add]
  | some al => rw [localScore_of_agent best]; exact agent al.1 al.2 best

theorem decideCall_offer {p : Station} {v : Nat} {g : Group} (peer : bestPeer s k = some (p, v, g))
    (ahead : localScore s c k + s.conf.margin < v) : decideCall s c k = .offer p g := by
  simp only [decideCall, peer]
  exact if_pos ahead

/-- With V at most L + M, or no peer, the local agents decide. -/
theorem decideCall_local (near : ∀ p v g, bestPeer s k = some (p, v, g) → v ≤ localScore s c k + s.conf.margin) :
    decideCall s c k = ((bestLocal s c k).map fun al => .bind al.1).getD .nothing := by
  unfold decideCall
  cases peer : bestPeer s k with
  | none => cases bestLocal s c k <;> rfl
  | some pvg =>
    have behind : ¬ localScore s c k + s.conf.margin < pvg.2.1 := (near _ _ _ peer).not_gt
    refine (if_neg behind).trans ?_
    cases bestLocal s c k <;> rfl

/-! ### The attempt (R66, R67, R75) -/

theorem deferCallAttempt_deferred (c : Slot) (s : State) :
    deferCallAttempt c s = { callBecomesDeferred c true id s with deferrals := min 65535 (s.deferrals + 1) } := by
  rw [deferCallAttempt, deferCall_becomes, count1_eq_min]
  rfl

theorem attemptCall_of_closed (h : s.selectable c = none) : attemptCall c s = s := by
  simp only [attemptCall, h]

theorem attemptCall_of_little_room (opened : s.selectable c = some k) (few : s.free < attemptRoom) :
    attemptCall c s = deferCallAttempt c s := by
  simp only [attemptCall, opened, if_pos few]

theorem attemptCall_of_offer (opened : s.selectable c = some k) (room : attemptRoom ≤ s.free) {p : Station} {g : Group}
    (decided : decideCall s c k = .offer p g) :
    attemptCall c s =
      if s.ordinaryRoom = 0 then deferCallAttempt c s else startOffer c k p g (callBecomesDeferred c false id s) := by
  simp only [attemptCall, opened, if_neg room.not_gt, decided, deferCall_becomes]

theorem attemptCall_of_bind (opened : s.selectable c = some k) (room : attemptRoom ≤ s.free) {a : Position}
    (decided : decideCall s c k = .bind a) : attemptCall c s = bindLocal c k a (callBecomesDeferred c false id s) := by
  simp only [attemptCall, opened, if_neg room.not_gt, decided, deferCall_becomes]

theorem attemptCall_of_nothing (opened : s.selectable c = some k) (room : attemptRoom ≤ s.free)
    (decided : decideCall s c k = .nothing) : attemptCall c s = callBecomesDeferred c false id s := by
  simp only [attemptCall, opened, if_neg room.not_gt, decided, deferCall_becomes]

end

/-- Settles O38: which agents count as free, then the attempt by its room and by what L and V decide. -/
theorem callAttemptsDecideByTheMargin : Obligations.CallAttemptsDecideByTheMargin := by
  refine ⟨fun s c k => ⟨fun unbound => ?_, fun q me hasId bound => ?_, eligibleGroups_of_tier_ne_two s,
    eligibleGroups_of_tier_two s⟩, fun s c => ⟨fun closed => ?_, fun k occupied waiting undiverted => ?_⟩⟩
  · exact bestLocal_of_no_holder ((holderOf_eq_none_iff s c).2 unbound) k
  · refine bestLocal_of_holder (Option.isSome_iff_ne_none.2 fun noHolder => ?_) k
    exact Bool.false_ne_true (((holderOf_eq_none_iff s c).1 noHolder q me hasId).symm.trans bound)
  · exact attemptCall_of_closed ((selectable_eq_none_iff s c).2 closed)
  have opened : s.selectable c = some k := (selectable_eq_some_iff s c k).2 ⟨occupied, waiting, undiverted⟩
  refine ⟨_, _, rfl, rfl, fun few => ?_, fun room p v g peer agent noAgent => ?_, fun room a l best near => ?_,
    fun room noAgent near => ?_⟩
  · rw [attemptCall_of_little_room opened few, deferCallAttempt_deferred]
  · have ahead : localScore s c k + s.conf.margin < v := localScore_lt agent noAgent
    rw [attemptCall_of_offer opened room (decideCall_offer peer ahead), deferCallAttempt_deferred]
  · rw [← localScore_of_agent best] at near
    exact attemptCall_of_bind opened room (by rw [decideCall_local near, best]; rfl)
  · have nearZero : ∀ p v g, bestPeer s k = some (p, v, g) → v ≤ localScore s c k + s.conf.margin := by
      rwa [localScore_of_none noAgent, Nat.zero_add]
    exact attemptCall_of_nothing opened room (by rw [decideCall_local nearZero, noAgent]; rfl)

end Sys2Proof.Machine
end

section
/-! PROOFS of the exchanges between stations (R39, R70, R136, R141, R148 to R162). First how a peer's frame comes to its
kind's rule; then what each rule does in any state: the answers to this station's offers, the offers to its own agents, the
claims, and the summaries; then the obligations. -/

namespace Sys2Proof.Machine

/-! ### A frame that spells a body (R122, R123) -/

theorem inRange_val {n : Nat} (i : Fin n) : inRange n i.val = some i := dif_pos i.isLt

theorem atMost_of_le {m k : Nat} (h : k ≤ m) : atMost m k = some k := if_pos h

theorem refIn_rawOf (r : CallRef) : refIn (rawOf r) = some r := by
  simp [refIn, rawOf, inRange_val]

theorem reasonIn_code (why : DeclineReason) : reasonIn why.code = some why := by
  cases why <;> rfl

/-- An entry as it stands in a frame (R122). -/
def rawEntry (e : Entry) : RawEntry := ⟨e.group.val, e.ready, e.best, e.waiting, e.age⟩

theorem entryIn_rawEntry {e : Entry} (h : EntryInRange e) : entryIn (rawEntry e) = some e := by
  obtain ⟨ready, best, waiting, age⟩ := h
  simp [entryIn, rawEntry, inRange_val, atMost_of_le, ready, best, waiting, age]

theorem entriesIn_map_rawEntry {es : List Entry} (h : ∀ e ∈ es, EntryInRange e) :
    entriesIn (es.map rawEntry) = some es := by
  induction es with
  | nil => rfl
  | cons e es ih =>
    obtain ⟨first, rest⟩ := List.forall_mem_cons.1 h
    simp [entriesIn, entryIn_rawEntry first, ih rest]

theorem event_receive_read {read : Option Body} {b : Body} (spelled : read = some b) (h : Header) (s : State) :
    event (receive (frameIn h read)) s = .next (attend s (receive (frameIn h (some b)) s)) := by
  rw [spelled, event_eq]

/-- The command of a frame with its fields in range has that frame received. -/
theorem exec_frameInstr (h : Header) {b : Body} (inRange : BodyInRange b) (s : State) :
    exec (frameInstr h b) s = .next (attend s (receive (frameIn h (some b)) s)) := by
  cases b with
  | summary es =>
    obtain ⟨few, each⟩ := inRange
    have spelled : summaryIn (es.map rawEntry) = some (.summary es) := by
      simp [summaryIn, few, entriesIn_map_rawEntry each]
    exact event_receive_read spelled h s
  | offer r g pr tier tag age =>
    obtain ⟨byte, waited⟩ := inRange
    exact event_receive_read (by simp [offerIn, refIn_rawOf, inRange_val, atMost_of_le, byte, waited]) h s
  | claim g st q score => exact event_receive_read (by simp [claimIn, inRange_val, atMost_of_le inRange]) h s
  | accept r q score =>
    exact event_receive_read (by simp [acceptIn, refIn_rawOf, inRange_val, atMost_of_le inRange]) h s
  | decline r why => exact event_receive_read (by simp [declineIn, refIn_rawOf, reasonIn_code]) h s
  | cancel r => exact event_receive_read (by simp [cancelIn, refIn_rawOf]) h s
  | answered r q => exact event_receive_read (by simp [answeredIn, refIn_rawOf, inRange_val]) h s
  | returned r q => exact event_receive_read (by simp [returnedIn, refIn_rawOf, inRange_val]) h s
  | nocall g q => exact event_receive_read (by simp [nocallIn, inRange_val]) h s

/-! ### The receive steps (R124, R148) -/

/-- OFFER and CLAIM, the kinds that a station ISOLATED ignores (R124). -/
def Body.asks : Body → Bool
  | .offer .. | .claim .. => true
  | .summary _ | .accept .. | .decline .. | .cancel _ | .answered .. | .returned .. | .nocall .. => false

/-- In service, a station that sends replies takes every kind, and any other all that ask nothing of it. -/
theorem takesKind_of_inService {s : State} (inService : s.outOfService = false) {b : Body}
    (heeded : b.asks = true → s.bus.station.sendsReplies = true) : s.bus.station.takesKind b = true := by
  unfold State.outOfService at inService
  cases station : s.bus.station with
  | joining | active => rfl
  | starting | unconfigured => simp [station] at inService
  | busFault | duplicateId =>
    have ignores : b.asks ≠ true := fun asks => by simpa [station, StationState.sendsReplies] using heeded asks
    cases b with
    | offer | claim => exact absurd rfl ignores
    | summary | accept | decline | cancel | answered | returned | nocall => rfl

theorem takeFrame_counted (f : Frame) (s : State) :
    takeFrame f s =
      if s.bus.id = some f.source then duplicateTest s.bus.sentFirstByte (frameCounted s)
      else if f.dest.val = 15 ∨ s.bus.id.map toDest = some f.dest then
        if s.bus.station.takesKind f.body then handle f.source f.body (heardFrom f.source s) else heardFrom f.source s
      else heardFrom f.source s := by
  have counted : (s.modBus fun b => { b with framesReceived := count1 b.framesReceived, sentFirstByte := false }) =
      frameCounted s := by
    simp only [count1_eq_min]
    rfl
  simp only [takeFrame, counted, hearPeer_heardFrom]

theorem receive_of_arrives {s : State} {h : Header} {p me : Station} (arrives : Arrives s h p me) {b : Body}
    (taken : s.bus.station.takesKind b = true) : receive (frameIn h (some b)) s = handle p b (heardFrom p s) := by
  obtain ⟨inService, hasId, other, source, dest⟩ := arrives
  have small : h.dest < 16 := by
    have := me.isLt
    omega
  have frame : frameIn h (some b) = some ⟨p, ⟨h.dest, small⟩, b⟩ := by
    simp [frameIn, source, inRange, small]
  have foreign : s.bus.id ≠ some p := by simp [hasId, other]
  have reached : h.dest = 15 ∨ s.bus.id.map toDest = some ⟨h.dest, small⟩ := by
    rcases dest with all | own
    · exact .inl all
    · exact .inr (by simp [hasId, toDest, own])
  simp only [receive, inService, frame, takeFrame_counted, if_neg foreign, if_pos reached, taken, if_true,
    Bool.false_eq_true, if_false]

/-- A frame that passes the naming check is handled by the rule of its kind, `act` (R148). -/
theorem exec_of_arrives {s : State} {h : Header} {p me : Station} (arrives : Arrives s h p me) (b : Body)
    (inRange : BodyInRange b) (heeded : b.asks = true → s.bus.station.sendsReplies = true)
    (named : namingPasses s p b = true) {act : State → State}
    (handled : ∀ u, namingPasses u p b = true → handle p b u = act u) :
    exec (frameInstr h b) s = .next (attend s (act (heardFrom p s))) := by
  have ⟨inService, _⟩ := arrives
  have namedNow : namingPasses (heardFrom p s) p b = true := named
  rw [exec_frameInstr h inRange, receive_of_arrives arrives (takesKind_of_inService inService heeded),
    handled _ namedNow]

section
variable {s : State} {h : Header} {p me : Station} {r : CallRef}

theorem id_eq_home (arrives : Arrives s h p me) (own : r.home = me) : s.bus.id = some r.home := by
  obtain ⟨_, hasId, _⟩ := arrives
  rw [hasId, own]

theorem exec_accept (arrives : Arrives s h p me) (own : r.home = me) (pos : Position) {score : Nat}
    (inRange : score ≤ 35495) :
    exec (frameInstr h (.accept r pos score)) s = .next (attend s (takeAccept p r pos (heardFrom p s))) :=
  exec_of_arrives arrives (.accept r pos score) inRange nofun (decide_eq_true (id_eq_home arrives own))
    fun _ named => if_pos named

theorem exec_decline (arrives : Arrives s h p me) (own : r.home = me) (why : DeclineReason) :
    exec (frameInstr h (.decline r why)) s = .next (attend s (takeDecline p r why (heardFrom p s))) :=
  exec_of_arrives arrives (.decline r why) trivial nofun (decide_eq_true (id_eq_home arrives own))
    fun _ named => if_pos named

theorem exec_answered (arrives : Arrives s h p me) (own : r.home = me) (pos : Position) :
    exec (frameInstr h (.answered r pos)) s = .next (attend s (takeAnswered p r pos (heardFrom p s))) :=
  exec_of_arrives arrives (.answered r pos) trivial nofun (decide_eq_true (id_eq_home arrives own))
    fun _ named => if_pos named

theorem exec_returned (arrives : Arrives s h p me) (own : r.home = me) (pos : Position) :
    exec (frameInstr h (.returned r pos)) s = .next (attend s (takeReturned p r pos (heardFrom p s))) :=
  exec_of_arrives arrives (.returned r pos) trivial nofun (decide_eq_true (id_eq_home arrives own))
    fun _ named => if_pos named

theorem exec_offer (arrives : Arrives s h p me) (theirs : r.home = p) (sends : s.bus.station.sendsReplies = true)
    (g : Group) {pr : Nat} (tier : Fin 3) (tag : Half) {age : Nat} (byte : pr ≤ 255) (waited : age ≤ 65535) :
    exec (frameInstr h (.offer r g pr tier tag age)) s =
      .next (attend s (takeOffer p r g pr tier tag (heardFrom p s))) :=
  exec_of_arrives arrives (.offer r g pr tier tag age) ⟨byte, waited⟩ (fun _ => sends) (decide_eq_true theirs)
    fun _ named => if_pos named

theorem exec_cancel (arrives : Arrives s h p me) (theirs : r.home = p) :
    exec (frameInstr h (.cancel r)) s = .next (attend s (takeCancel r (heardFrom p s))) :=
  exec_of_arrives arrives (.cancel r) trivial nofun (decide_eq_true theirs) fun _ named => if_pos named

theorem exec_claim (arrives : Arrives s h p me) (sends : s.bus.station.sendsReplies = true) (g : Group) (pos : Position)
    {score : Nat} (inRange : score ≤ 35495) :
    exec (frameInstr h (.claim g p pos score)) s = .next (attend s (takeClaim p g pos score (heardFrom p s))) :=
  exec_of_arrives arrives (.claim g p pos score) inRange (fun _ => sends) (decide_eq_true rfl)
    fun _ named => if_pos named

theorem exec_nocall (arrives : Arrives s h p me) (g : Group) (pos : Position) :
    exec (frameInstr h (.nocall g pos)) s = .next (attend s (takeNocall p g pos (heardFrom p s))) :=
  exec_of_arrives arrives (.nocall g pos) trivial nofun rfl fun _ named => if_pos named

theorem exec_summary (arrives : Arrives s h p me) {es : List Entry} (few : es.length ≤ 16)
    (each : ∀ e ∈ es, EntryInRange e) :
    exec (frameInstr h (.summary es)) s = .next (attend s (summaryTaken p es (heardFrom p s))) :=
  exec_of_arrives arrives (.summary es) ⟨few, each⟩ nofun rfl fun _ named => if_pos named

end

/-! ### The answers to this station's offers (R39, R40, R150, R151, R156, R157) -/

theorem callBecomesDeferred_congr {s : State} {c : Slot} {k : Call} (held : s.callAt c = some k) (b : Bool)
    {f g : Call → Call} (same : f k = g k) : callBecomesDeferred c b f s = callBecomesDeferred c b g s := by
  rw [← deferCall_callBecomes, ← deferCall_callBecomes, callBecomes_congr held same]

theorem callAt_of_named {s : State} {r : CallRef} {k : Call} (named : s.named r = some k) : s.callAt r.slot = some k := by
  unfold State.named at named
  split at named
  · exact named
  · cases named

theorem countRonaReturn_counts (g : Group) (s : State) :
    countRonaReturn g s = groupCounts g (fun n => { n with ronaReturns := min 65535 (n.ronaReturns + 1) }) s := by
  simp only [countRonaReturn, count1_eq_min]
  rfl

/-- A clear request that names a peer, in the terms of the statements (R40). -/
theorem clearMark_peer {s : State} {c : Slot} {k : Call} (held : s.callAt c = some k) (p : Station) (rona : Bool)
    (placing : State → State) :
    clearMark c (some p) rona placing s = divertOrAttempt c k
      (placing (if rona then countRonaReturn k.group (markCleared c p s) else markCleared c p s)) := by
  have cleared : (s.alterCall c fun k =>
      { k with declined := if s.bus.id = some p then k.declined else withStation k.declined p }).markCall c .waiting =
      markCleared c p s := by
    rw [markCall_other c .waiting _ nofun, alterCall_becomes, callBecomes_callBecomes]
    rfl
  simp only [clearMark, held, cleared]
  rfl

section
variable {u : State} {r : CallRef} {k : Call} {p : Station} {pos : Position}

theorem takeAccept_of_offered_full (named : u.named r = some k) {d : Nat} {g : Group}
    (offered : k.state = .offered p d g) (full : u.free = 0) : takeAccept p r pos u = u.reply p (.cancel r) := by
  simp [takeAccept, named, offered, full]

theorem takeAccept_of_offered (named : u.named r = some k) {d : Nat} {g : Group}
    (offered : k.state = .offered p d g) (room : 0 < u.free) :
    takeAccept p r pos u = placed [.route k.trunk p pos] (callBecomesDeferred r.slot false (fun k => { k with
      state := .alertingRemote p pos (u.now + 10 * ((u.groupRec k.group).alertTime + 2)) }) u) := by
  have watched : ((u.markCall r.slot (.alertingRemote p pos (u.now + 10 * ((u.groupRec k.group).alertTime + 2)))).deferCall
      r.slot false) = callBecomesDeferred r.slot false (fun k => { k with
        state := .alertingRemote p pos (u.now + 10 * ((u.groupRec k.group).alertTime + 2)) }) u := by
    rw [markCall_remote, deferCall_callBecomes]
    exact callBecomesDeferred_congr (callAt_of_named named) false rfl
  rw [← watched, ← place_placed]
  · simp [takeAccept, named, offered, room.ne']
  · exact room

theorem takeAccept_of_alertingRemote (named : u.named r = some k) {a : Position} {d : Nat}
    (alerting : k.state = .alertingRemote p a d) : takeAccept p r pos u = staleCounted u := by
  simp [takeAccept, named, alerting, countStale_counted]

/-- An ACCEPT that no offer to the peer explains draws a CANCEL. -/
theorem takeAccept_stale (unmatched : ∀ k, u.named r = some k →
    (∀ d g, k.state ≠ .offered p d g) ∧ ∀ a d, k.state ≠ .alertingRemote p a d) :
    takeAccept p r pos u = (staleCounted u).reply p (.cancel r) := by
  rw [← countStale_counted]
  cases named : u.named r with
  | none => simp only [takeAccept, named]
  | some k =>
    obtain ⟨notOffered, notAlerting⟩ := unmatched k named
    cases state : k.state with
    | offered q d g =>
      have other : q ≠ p := by
        rintro rfl
        exact notOffered d g state
      simp [takeAccept, named, state, other]
    | alertingRemote q a d =>
      have other : q ≠ p := by
        rintro rfl
        exact notAlerting a d state
      simp [takeAccept, named, state, other]
    | waiting | alertingLocal | connected => simp only [takeAccept, named, state]

/-- What a DECLINE tells of the peer's group (R141, R151). -/
def declineNoted (p : Station) (g : Group) (why : DeclineReason) (s : State) : State :=
  match why with
  | .noAgent | .notServed => adjustDecline p g s
  | .noRoom => s

theorem callAt_declineNoted (p : Station) (g : Group) (why : DeclineReason) (s : State) (c : Slot) :
    (declineNoted p g why s).callAt c = s.callAt c := by
  cases why with
  | noAgent | notServed => simp [declineNoted, adjustDecline, State.callAt]
  | noRoom => rfl

theorem takeDecline_of_offered (named : u.named r = some k) {d : Nat} {g : Group} (offered : k.state = .offered p d g)
    (why : DeclineReason) :
    takeDecline p r why u = divertOrAttempt r.slot k (markCleared r.slot p (declineNoted p g why u)) := by
  have held : (declineNoted p g why u).callAt r.slot = some k := by
    rw [callAt_declineNoted, callAt_of_named named]
  have cleared : takeDecline p r why u = clearMark r.slot (some p) false id (declineNoted p g why u) := by
    simp only [takeDecline, named, offered]
    exact if_neg (not_not.2 rfl)
  rw [cleared, clearMark_peer held]
  rfl

theorem takeDecline_stale (unmatched : ∀ k, u.named r = some k → ∀ d g, k.state ≠ .offered p d g)
    (why : DeclineReason) : takeDecline p r why u = staleCounted u := by
  rw [← countStale_counted]
  cases named : u.named r with
  | none => simp only [takeDecline, named]
  | some k =>
    cases state : k.state with
    | offered q d g =>
      have other : q ≠ p := by
        rintro rfl
        exact unmatched k named d g state
      simp [takeDecline, named, state, other]
    | waiting | alertingLocal | alertingRemote | connected => simp only [takeDecline, named, state]

theorem takeAnswered_of_alertingRemote (named : u.named r = some k) {d : Nat}
    (alerting : k.state = .alertingRemote p pos d) : takeAnswered p r pos u = connect r.slot u := by
  simp [takeAnswered, named, alerting]

theorem takeAnswered_of_connected (named : u.named r = some k) (connected : k.state = .connected) :
    takeAnswered p r pos u = u := by
  simp [takeAnswered, named, connected]

theorem takeAnswered_stale (unmatched : ∀ k, u.named r = some k →
    (∀ d, k.state ≠ .alertingRemote p pos d) ∧ k.state ≠ .connected) : takeAnswered p r pos u = staleCounted u := by
  rw [← countStale_counted]
  cases named : u.named r with
  | none => simp only [takeAnswered, named]
  | some k =>
    obtain ⟨notAlerting, notConnected⟩ := unmatched k named
    cases state : k.state with
    | alertingRemote q a d =>
      have other : ¬ (q = p ∧ a = pos) := by
        rintro ⟨rfl, rfl⟩
        exact notAlerting d state
      simp [takeAnswered, named, state, other]
    | connected => exact absurd state notConnected
    | waiting | offered | alertingLocal => simp only [takeAnswered, named, state]

theorem takeReturned_of_alertingRemote (named : u.named r = some k) {d : Nat}
    (alerting : k.state = .alertingRemote p pos d) (room : 0 < u.free) :
    takeReturned p r pos u = divertOrAttempt r.slot k (placed [.unroute k.trunk]
      (groupCounts k.group (fun n => { n with ronaReturns := min 65535 (n.ronaReturns + 1) })
        (markCleared r.slot p u))) := by
  have roomLater : 0 < (countRonaReturn k.group (markCleared r.slot p u)).free := room
  have cleared : takeReturned p r pos u = clearMark r.slot (some p) true (fun t => t.place (.unroute k.trunk)) u := by
    simp [takeReturned, named, alerting, room]
  rw [cleared, clearMark_peer (callAt_of_named named), if_pos rfl, place_placed _ roomLater, countRonaReturn_counts]

theorem takeReturned_stale (unmatched : u.free = 0 ∨ ∀ k, u.named r = some k → ∀ d, k.state ≠ .alertingRemote p pos d) :
    takeReturned p r pos u = staleCounted u := by
  rw [← countStale_counted]
  cases named : u.named r with
  | none => simp only [takeReturned, named]
  | some k =>
    cases state : k.state with
    | alertingRemote q a d =>
      have other : ¬ (q = p ∧ a = pos ∧ 0 < u.free) := by
        rintro ⟨rfl, rfl, room⟩
        rcases unmatched with full | unmatched
        · exact room.ne' full
        · exact unmatched k named d state
      simp [takeReturned, named, state, other]
    | waiting | offered | alertingLocal | connected => simp only [takeReturned, named, state]

end

/-! ### The offers to this station's agents (R13, R15, R153, R154, R159) -/

section
variable {u : State} {r : CallRef} {p : Station} {a : Position}

theorem replyRoom_of_sendsReplies (sends : u.bus.station.sendsReplies = true) :
    u.replyRoom = 8 - u.bus.replies.length := by
  rw [State.replyRoom, if_pos sends]
  rfl

theorem answerRepeat_of_not_talking (silent : ∀ b, (u.agent a).state ≠ .talking b) :
    answerRepeat p r a u = u.reply p (.accept r a 0) := by
  unfold answerRepeat
  cases state : (u.agent a).state with
  | talking b => exact absurd state (silent b)
  | loggedOut | notReady | ready | claiming | alerting | wrap | wrapOver => rfl

theorem answerRepeat_of_talking {b : Binding} (talking : (u.agent a).state = .talking b)
    (sends : u.bus.station.sendsReplies = true) :
    answerRepeat p r a u =
      if u.bus.replies.length + 2 ≤ 8 then (u.reply p (.accept r a 0)).reply p (.answered r a)
      else u.reply p (.decline r .noRoom) := by
  have fits : 2 ≤ u.replyRoom ↔ u.bus.replies.length + 2 ≤ 8 := by
    rw [replyRoom_of_sendsReplies sends]
    omega
  simp only [answerRepeat, talking, fits]

/-- The record of an agent bound to a peer's call (R13). -/
def offerBound (r : CallRef) (g : Group) (a : Position) (since : Nat) (s : State) : State :=
  claimRemoved a { s with agents := alter s.agents a fun x =>
    { x with
      state := .alerting since ⟨r, g, false⟩ (s.now + 10 * (s.groupRec g).alertTime)
      changed := true, deferred := false } }

theorem bind_of_foreign {g : Group} {since : Nat} (foreign : u.bus.id ≠ some r.home)
    (hasSince : (u.agent a).state.since = some since) : bind a r g u = offerBound r g a since u := by
  simp only [bind, boundState, hasSince, Option.getD_some, foreign, decide_false]
  rfl

variable {g : Group} {pr : Nat} {tier : Fin 3} {tag : Half}

theorem takeOffer_of_bound (bound : u.boundAgent r = some a) :
    takeOffer p r g pr tier tag u = answerRepeat p r a u := by
  simp only [takeOffer, bound]

theorem takeOffer_notServed (unbound : u.boundAgent r = none) (unserved : u.defines g = false ∨ tier = 0 ∨ 3 < pr) :
    takeOffer p r g pr tier tag u = u.reply p (.decline r .notServed) := by
  simp only [takeOffer, unbound, if_pos unserved]

/-! A served OFFER goes to the best agent of the group, if there is one and there is room for its ALERT and ACCEPT. -/

theorem takeOffer_noAgent (unbound : u.boundAgent r = none) (served : ¬ (u.defines g = false ∨ tier = 0 ∨ 3 < pr))
    (noAgent : (bestAgent u fun a => scoreIn u (u.agent a) g) = none) :
    takeOffer p r g pr tier tag u = u.reply p (.decline r .noAgent) := by
  simp only [takeOffer, unbound, if_neg served, noAgent]

theorem takeOffer_noRoom (unbound : u.boundAgent r = none) (served : ¬ (u.defines g = false ∨ tier = 0 ∨ 3 < pr))
    {score : Nat} (best : (bestAgent u fun a => scoreIn u (u.agent a) g) = some (a, score))
    (full : u.free = 0 ∨ u.replyRoom = 0) : takeOffer p r g pr tier tag u = u.reply p (.decline r .noRoom) := by
  simp only [takeOffer, unbound, if_neg served, best, if_pos full]

theorem takeOffer_accepted (unbound : u.boundAgent r = none) (served : ¬ (u.defines g = false ∨ tier = 0 ∨ 3 < pr))
    {score : Nat} (best : (bestAgent u fun a => scoreIn u (u.agent a) g) = some (a, score)) (room : 0 < u.free)
    (replies : 0 < u.replyRoom) (foreign : u.bus.id ≠ some r.home) {since : Nat}
    (hasSince : (u.agent a).state.since = some since) :
    takeOffer p r g pr tier tag u =
      (placed [.alert a p tag] (offerBound r g a since u)).reply p (.accept r a score) := by
  have fits : ¬ (u.free = 0 ∨ u.replyRoom = 0) := not_or.2 ⟨room.ne', replies.ne'⟩
  have roomLater : 0 < (offerBound r g a since u).free := room
  simp only [takeOffer, unbound, if_neg served, best, if_neg fits, bind_of_foreign foreign hasSince,
    place_placed _ roomLater]

theorem takeCancel_of_unbound (unbound : u.boundAgent r = none) : takeCancel r u = u := by
  simp only [takeCancel, unbound]

theorem takeCancel_of_alerting (bound : u.boundAgent r = some a) {since d : Nat} {b : Binding}
    (alerting : (u.agent a).state = .alerting since b d) (room : 0 < u.free) :
    takeCancel r u = attemptAgent false a (entersReady a since (placed [.withdraw a] u)) := by
  rw [← unbind_of_alerting alerting room]
  simp [takeCancel, bound, alerting, AgentState.alertingNow, room]

theorem takeCancel_stale (bound : u.boundAgent r = some a)
    (kept : (∀ t b d, (u.agent a).state ≠ .alerting t b d) ∨ u.free = 0) : takeCancel r u = staleCounted u := by
  have keeps : ¬ ((u.agent a).state.alertingNow = true ∧ 0 < u.free) := by
    rintro ⟨alerting, room⟩
    rcases kept with notAlerting | full
    · cases state : (u.agent a).state with
      | alerting t b d => exact notAlerting t b d state
      | loggedOut | notReady | ready | claiming | talking | wrap | wrapOver =>
        rw [state] at alerting
        cases alerting
    · exact room.ne' full
  rw [← countStale_counted]
  simp only [takeCancel, bound, if_neg keeps]

end

/-! ### The claims (R17, R141, R161, R162) -/

section
variable {u : State} {p : Station} {g : Group} {pos : Position}

theorem takeClaim_nocall {score : Nat}
    (nothing : u.bus.station ≠ .active ∨ score = 0 ∨ pickForClaim u p g = none) :
    takeClaim p g pos score u = u.reply p (.nocall g pos) := by
  unfold takeClaim
  split
  · next asked =>
    obtain ⟨active, scored⟩ := asked
    rcases nothing with notActive | zero | noCall
    · exact absurd active notActive
    · exact absurd zero scored.ne'
    · rw [noCall]
  · rfl

theorem takeClaim_offer {score : Nat} (active : u.bus.station = .active) (scored : 0 < score) {c : Slot} {k : Call}
    (picked : pickForClaim u p g = some (c, k)) :
    takeClaim p g pos score u = if u.ordinaryRoom = 0 then u else startOffer c k p g u := by
  simp only [takeClaim, active, scored, picked, and_self, if_true]

theorem takeNocall_of_claim {x : Claim} {since : Nat} (claimed : u.claimOf pos = some x) (peer : x.peer = p)
    (group : x.group = g) (claiming : (u.agent pos).state = .claiming since) :
    takeNocall p g pos u = attemptAgent false pos (adjustEntry p g (fun e => { e with waiting := 0, age := 0 })
      (entersReady pos since (claimRemoved pos u))) := by
  have ended : endClaim pos u = entersReady pos since (claimRemoved pos u) := by
    simp only [endClaim, claiming, removeClaim_removed, enter_ready]
  simp only [takeNocall, claimed, peer, group, and_self, if_true, ended]
  rfl

theorem takeNocall_stale (unmatched : ∀ x, u.claimOf pos = some x → x.peer ≠ p ∨ x.group ≠ g) :
    takeNocall p g pos u = staleCounted u := by
  rw [← countStale_counted]
  unfold takeNocall
  cases claimed : u.claimOf pos with
  | none => rfl
  | some x =>
    have other : ¬ (x.peer = p ∧ x.group = g) := not_and_or.2 (unmatched x claimed)
    exact if_neg other

end

/-! ### The summaries (R70, R134 to R136) -/

/-- The last entry of a group is the first that a search from the end meets. -/
theorem find?_reverse_eq_some_iff {α : Type} (ok : α → Bool) (l : List α) (x : α) :
    l.reverse.find? ok = some x ↔ ok x = true ∧ ∃ pre post, l = pre ++ x :: post ∧ ∀ y ∈ post, ok y = false := by
  rw [List.find?_eq_some_iff_append]
  refine and_congr_right fun _ => ⟨?_, ?_⟩
  · rintro ⟨post, pre, split, fails⟩
    refine ⟨pre.reverse, post.reverse, ?_, fun y inPost => by simpa using fails y (List.mem_reverse.1 inPost)⟩
    have := congrArg List.reverse split
    simpa using this
  · rintro ⟨pre, post, rfl, fails⟩
    exact ⟨post.reverse, pre.reverse, by simp, fun y inPost => by simpa using fails y (List.mem_reverse.1 inPost)⟩

/-- The entry as a row holds it: a best without agents ready is 0 (R136). -/
def heldOf (e : Entry) : Entry := { e with best := if e.ready = 0 then 0 else e.best }

theorem mem_heldEntries_iff (es : List Entry) (e : Entry) :
    e ∈ heldEntries es ↔ ∃ pre x post, es = pre ++ x :: post ∧ (∀ y ∈ post, y.group ≠ x.group) ∧ e = heldOf x := by
  have found : e ∈ heldEntries es ↔
      ∃ g : Group, ∃ x, es.reverse.find? (fun e => e.group = g) = some x ∧ heldOf x = e := by
    simp [heldEntries, heldOf]
  rw [found]
  simp only [find?_reverse_eq_some_iff, decide_eq_true_eq, decide_eq_false_iff_not]
  constructor
  · rintro ⟨g, x, ⟨rfl, pre, post, split, last⟩, rfl⟩
    exact ⟨pre, x, post, split, last, rfl⟩
  · rintro ⟨pre, x, post, split, last, rfl⟩
    exact ⟨x.group, x, ⟨rfl, pre, post, split, last⟩, rfl⟩

/-- Each group of a row gives at most one entry, of its own group, so the entries ascend as the groups do. -/
theorem heldEntries_pairwise (es : List Entry) : (heldEntries es).Pairwise fun e f => e.group < f.group := by
  have groupOf {g : Group} {e : Entry}
      (h : (es.reverse.find? fun e => e.group = g).map heldOf = some e) : e.group = g := by
    obtain ⟨x, found, rfl⟩ := Option.map_eq_some_iff.1 h
    simpa [heldOf] using List.find?_some found
  unfold heldEntries
  rw [List.pairwise_filterMap]
  refine (List.pairwise_lt_finRange 16).imp fun {g g'} below e he f hf => ?_
  rwa [groupOf he, groupOf hf]

/-- The row that a SUMMARY leaves (R135, R136). -/
def summaryHeld (p : Station) (es : List Entry) (s : State) : State :=
  { heardFrom p s with peers := { (heardFrom p s).peers with
    rows := alter s.peers.rows p fun _ => some ⟨s.now + 3 * s.conf.slow, some s.now, heldEntries es⟩ } }

/-- A peer just heard has a row: its entries are those it had, none for a row that was absent (R135). -/
theorem heardFrom_rows (p : Station) (s : State) :
    ∃ receipt, (heardFrom p s).peers.rows = alter s.peers.rows p fun _ =>
      some ⟨s.now + 3 * s.conf.slow, receipt, ((s.peers.rows[p]).map PeerRow.entries).getD []⟩ := by
  unfold heardFrom
  cases s.peers.rows[p] with
  | none => exact ⟨none, rfl⟩
  | some row => exact ⟨row.receipt, rfl⟩

theorem takeSummary_heardFrom (p : Station) (es : List Entry) (s : State) :
    takeSummary p es (heardFrom p s) = summaryHeld p es s := by
  obtain ⟨receipt, rows⟩ := heardFrom_rows p s
  simp only [takeSummary, rows, alter_get_self, State.setRow, State.modPeers, alter_alter]
  rfl

/-- Hearing a peer changes no figure of its row (R134, R135). -/
theorem peerEntry_heardFrom (p : Station) (g : Group) (s : State) : peerEntry (heardFrom p s) p g = peerEntry s p g := by
  obtain ⟨receipt, rows⟩ := heardFrom_rows p s
  simp only [peerEntry, rows, alter_get_self]
  cases s.peers.rows[p] <;> rfl

/-- The pass makes the attempts of R70 from any bests before it, when one of them has risen. -/
theorem raisedPass_eq (p : Station) (best : Group → Nat) (u : State) :
    raisedPass p ((List.finRange 16).map best) u =
      if u.bus.station = .active ∧ ∃ g, best g < (peerEntry u p g).best then
        u.queuedSlots.foldl (raisedCall p ((List.finRange 16).filter fun g => best g < (peerEntry u p g).best)) u
      else u := by
  have before : ∀ g : Group, ((List.finRange 16).map best).getD g.val 0 = best g := fun g => by simp [List.getD]
  have some_raised : ((List.finRange 16).filter fun g => best g < (peerEntry u p g).best) ≠ [] ↔
      ∃ g, best g < (peerEntry u p g).best := by simp [List.filter_eq_nil_iff]
  simp only [raisedPass, before, some_raised]

theorem summaryTaken_heardFrom (p : Station) (es : List Entry) (s : State) :
    summaryTaken p es (heardFrom p s) =
      raisedPass p ((List.finRange 16).map fun g => (peerEntry s p g).best) (summaryHeld p es s) := by
  simp only [summaryTaken, takeSummary_heardFrom, peerEntry_heardFrom]

theorem raisedCall_eq (p : Station) (before after : Group → Nat) (v : State) (c : Slot) :
    raisedCall p ((List.finRange 16).filter fun g => before g < after g) v c =
      match v.callAt c with
      | some k =>
        if k.tier ≠ 0 ∧ k.declined[p] = false ∧ ∃ g ∈ v.eligibleGroups k, before g < after g
        then attemptCall c v else v
      | none => v := by
  unfold raisedCall
  cases v.callAt c with
  | none => rfl
  | some k => simp

/-! ### The obligations -/

/-- Settles O49: each answer by the state of the call its reference names. -/
theorem homeTakesTheReplies : Obligations.HomeTakesTheReplies := by
  intro s h p me r pos arrives own
  refine ⟨fun score inRange => ⟨fun k d g named offered => ?_, fun k a d named alerting => ?_, fun unmatched => ?_⟩,
    fun why => ⟨fun k d g named offered => ?_, fun unmatched => ?_⟩,
    fun k d named alerting => ⟨?_, ?_⟩, fun unmatched => ⟨?_, ?_⟩⟩
  · rw [exec_accept arrives own pos inRange]
    split
    · next full => rw [takeAccept_of_offered_full (u := heardFrom p s) named offered full]
    · next room =>
      rw [takeAccept_of_offered (u := heardFrom p s) named offered (Nat.pos_of_ne_zero room)]
      rfl
  · rw [exec_accept arrives own pos inRange, takeAccept_of_alertingRemote (u := heardFrom p s) named alerting]
  · rw [exec_accept arrives own pos inRange, takeAccept_stale (u := heardFrom p s) unmatched]
  · rw [exec_decline arrives own why, takeDecline_of_offered (u := heardFrom p s) named offered]
    cases why <;> rfl
  · rw [exec_decline arrives own why, takeDecline_stale (u := heardFrom p s) unmatched]
  · rw [exec_answered arrives own pos, takeAnswered_of_alertingRemote (u := heardFrom p s) named alerting]
  · rw [exec_returned arrives own pos]
    split
    · next full => rw [takeReturned_stale (u := heardFrom p s) (.inl full)]
    · next room =>
      rw [takeReturned_of_alertingRemote (u := heardFrom p s) named alerting (Nat.pos_of_ne_zero room)]
  · rw [exec_returned arrives own pos,
      takeReturned_stale (u := heardFrom p s) (.inr fun k named d => unmatched k d named)]
  · rw [exec_answered arrives own pos]
    split
    · next connected =>
      obtain ⟨occupied, connected⟩ := connected
      obtain ⟨k, named⟩ := Option.ne_none_iff_exists'.1 occupied
      rw [takeAnswered_of_connected (u := heardFrom p s) named (connected k named)]
    · next unconnected =>
      have unanswered : ∀ k, (heardFrom p s).named r = some k →
          (∀ d, k.state ≠ .alertingRemote p pos d) ∧ k.state ≠ .connected := fun k named =>
        ⟨fun d => unmatched k d named, fun connected => unconnected ⟨Option.ne_none_iff_exists'.2 ⟨k, named⟩,
          fun j same => Option.some.inj (named.symm.trans same) ▸ connected⟩⟩
      rw [takeAnswered_stale (u := heardFrom p s) unanswered]

/-- Settles O50: an OFFER by the agent already bound, else by the checks of R153 in order; a CANCEL by the agent bound. -/
theorem peerTakesTheOffers : Obligations.PeerTakesTheOffers := by
  intro s h p me r arrives theirs
  have ⟨_, hasId, other, _⟩ := arrives
  refine ⟨fun g pr tier tag age sends byte waited => ?_, fun unbound => ?_, fun a bound => ⟨?_, ?_⟩⟩
  · rw [exec_offer arrives theirs sends g tier tag byte waited]
    refine ⟨fun a bound => ?_, fun unbound => ⟨fun unserved => ?_, fun defined remote priority => ?_⟩⟩
    · rw [takeOffer_of_bound (u := heardFrom p s) bound]
      refine ⟨fun silent => ?_, fun b talking => ?_⟩
      · rw [answerRepeat_of_not_talking (u := heardFrom p s) silent]
      · rw [answerRepeat_of_talking (u := heardFrom p s) talking sends]
        exact apply_ite (fun t => Host.Outcome.next (attend s t)) _ _ _
    · rw [takeOffer_notServed (u := heardFrom p s) unbound unserved]
    · have served : ¬ ((heardFrom p s).defines g = false ∨ tier = 0 ∨ 3 < pr) := by
        rintro (undefined | tierZero | above)
        · exact Bool.false_ne_true (undefined.symm.trans defined)
        · exact remote tierZero
        · exact above.not_ge priority
      have replyRoom : (heardFrom p s).replyRoom = 8 - s.bus.replies.length :=
        replyRoom_of_sendsReplies (u := heardFrom p s) sends
      refine ⟨fun noAgent => ?_, fun a score best => ⟨fun full => ?_, fun since room replies hasSince => ?_⟩⟩
      · rw [takeOffer_noAgent (u := heardFrom p s) unbound served noAgent]
      · have fullNow : (heardFrom p s).free = 0 ∨ (heardFrom p s).replyRoom = 0 :=
          full.imp id fun many => by rw [replyRoom, Nat.sub_eq_zero_of_le many]
        rw [takeOffer_noRoom (u := heardFrom p s) unbound served best fullNow]
      · have foreign : (heardFrom p s).bus.id ≠ some r.home := by
          rw [theirs]
          exact fun mine => other (Option.some.inj (hasId.symm.trans mine))
        have repliesNow : 0 < (heardFrom p s).replyRoom := by
          rw [replyRoom]
          exact Nat.sub_pos_of_lt replies
        rw [takeOffer_accepted (u := heardFrom p s) unbound served best room repliesNow foreign hasSince]
        rfl
  · rw [exec_cancel arrives theirs, takeCancel_of_unbound (u := heardFrom p s) unbound]
  · intro since b d alerting room
    rw [exec_cancel arrives theirs, takeCancel_of_alerting (u := heardFrom p s) bound alerting room]
  · intro kept
    rw [exec_cancel arrives theirs, takeCancel_stale (u := heardFrom p s) bound kept]

/-- Settles O51: what a row holds of a SUMMARY; then a CLAIM by what may answer it, a NOCALL by the claim it ends, and a
SUMMARY by whether a best has risen. -/
theorem claimsAndSummariesAreTaken : Obligations.ClaimsAndSummariesAreTaken := by
  refine ⟨fun es => ⟨heldEntries_pairwise es, mem_heldEntries_iff es⟩, fun s h p me arrives =>
    ⟨fun g pos score sends inRange => ?_, fun g pos => ⟨fun x since claimed peer group claiming => ?_, fun unmatched => ?_⟩,
      fun es few each => ⟨summaryHeld p es s, rfl, fun unraised => ?_, fun active raised => ?_⟩⟩⟩
  · rw [exec_claim arrives sends g pos inRange]
    refine ⟨fun nothing => ?_, fun active scored c k picked => ?_⟩
    · rw [takeClaim_nocall (u := heardFrom p s) nothing]
    · rw [takeClaim_offer (u := heardFrom p s) active scored picked]
      exact apply_ite (fun t => Host.Outcome.next (attend s t)) _ _ _
  · rw [exec_nocall arrives, takeNocall_of_claim (u := heardFrom p s) claimed peer group claiming]
  · rw [exec_nocall arrives, takeNocall_stale (u := heardFrom p s) unmatched]
  · have noPass : ¬ ((summaryHeld p es s).bus.station = .active ∧
        ∃ g, (peerEntry s p g).best < (peerEntry (summaryHeld p es s) p g).best) := by
      rintro ⟨active, g, risen⟩
      rcases unraised with inactive | noneRisen
      · exact inactive active
      · exact risen.not_ge (noneRisen g)
    rw [exec_summary arrives few each, summaryTaken_heardFrom, raisedPass_eq, if_neg noPass]
  · have pass : (summaryHeld p es s).bus.station = .active ∧
        ∃ g, (peerEntry s p g).best < (peerEntry (summaryHeld p es s) p g).best := ⟨active, raised⟩
    rw [exec_summary arrives few each, summaryTaken_heardFrom, raisedPass_eq, if_pos pass]
    refine congrArg (fun f => Host.Outcome.next (attend s (List.foldl f (summaryHeld p es s) s.queuedSlots))) ?_
    funext v c
    exact raisedCall_eq p _ _ v c

end Sys2Proof.Machine
end

section
/-! PROOFS of the CHANGES transaction (R174). First the clearing of marks, which leaves the attention line alone; then what
the last bit of each item does; then the state after the count and `n` more items, by induction on `n`; then the command. -/

namespace Sys2Proof.Machine

/-! ### Clearing change marks (R174, R175) -/

/-- The records with the change marks of these positions cleared. -/
def marksCleared (ps : List Position) (agents : Vector Agent 48) : Vector Agent 48 :=
  Vector.ofFn fun p => if p ∈ ps then { agents[p] with changed := false } else agents[p]

theorem marksCleared_get (ps : List Position) (agents : Vector Agent 48) (p : Position) :
    (marksCleared ps agents)[p] = if p ∈ ps then { agents[p] with changed := false } else agents[p] := by
  simp [marksCleared]

theorem marksCleared_nil (agents : Vector Agent 48) : marksCleared [] agents = agents := by
  ext j hj
  simp [marksCleared]

/-- One more position cleared is one more in the list. -/
theorem alter_marksCleared (ps : List Position) (agents : Vector Agent 48) (p : Position) :
    (alter (marksCleared ps agents) p fun a => { a with changed := false }) = marksCleared (ps ++ [p]) agents := by
  suffices each : ∀ q : Position, (alter (marksCleared ps agents) p fun a => { a with changed := false })[q] =
      (marksCleared (ps ++ [p]) agents)[q] from Vector.ext fun j hj => each ⟨j, hj⟩
  intro q
  rw [alter_get, marksCleared_get, marksCleared_get, marksCleared_get]
  by_cases same : p = q
  · subst same
    by_cases already : p ∈ ps <;> simp [already]
  · simp [same, Ne.symm same]

/-- A command whose only effect on the causes is to clear change marks leaves the attention line alone (R172, R175). -/
theorem attend_of_fewer_marks {s t : State} (fault : t.port.loadFault = s.port.loadFault)
    (loss : t.time.clockLoss = s.time.clockLoss) (iso : t.port.isolated = s.port.isolated)
    (peers : t.peers.changed = s.peers.changed) (dirs : t.port.directives = s.port.directives)
    (marks : ∀ p, (t.agent p).changed = true → (s.agent p).changed = true) : attend s t = t := by
  refine attend_of_no_new_cause fun c pending => ?_
  cases c with
  | loadFault => rwa [causePending, fault] at pending
  | clockLoss => rwa [causePending, loss] at pending
  | isolated => rwa [causePending, iso] at pending
  | peerChange => rwa [causePending, peers] at pending
  | directivesPending => rwa [causePending, dirs] at pending
  | agentChange =>
    simp only [causePending, Bool.not_eq_true', List.isEmpty_eq_false_iff_exists_mem, mem_marked] at pending ⊢
    exact pending.imp marks

/-! ### The items of a CHANGES (R165, R174) -/

theorem firstBit_changes {s : State} {list : List Position} {i : Nat} (changes : s.port.transaction = .changes list i) :
    firstBit s = s := by
  simp only [firstBit, changes]

theorem lastBit_changes_count {s : State} {list : List Position} (changes : s.port.transaction = .changes list 0) :
    lastBit s = { s with port := { s.port with
      transaction := .changes list 1, out := s.port.out ++ [lowByte list.length] } } := by
  simp only [lastBit, firstBit_changes changes, changes]
  rfl

theorem lastBit_changes_position {s : State} {list : List Position} {i : Nat} {p : Position}
    (changes : s.port.transaction = .changes list (i + 1)) (position : list[i]? = some p) :
    lastBit s = { s with
      agents := alter s.agents p fun a => { a with changed := false }
      port := { s.port with transaction := .changes list (i + 2), out := s.port.out ++ [lowByte p.val] } } := by
  simp only [lastBit, firstBit_changes changes, changes, position]
  rfl

/-- Past the last position zero bytes are driven, and nothing is cleared (R165). -/
theorem lastBit_changes_past {s : State} {list : List Position} {i : Nat}
    (changes : s.port.transaction = .changes list (i + 1)) (past : list.length ≤ i) :
    lastBit s = s.emit [0] := by
  simp only [lastBit, firstBit_changes changes, changes, List.getElem?_eq_none past]

theorem clockItems_succ (n : Nat) (s : State) : clockItems (n + 1) s = lastBit (clockItems n s) := by
  induction n generalizing s with
  | zero => rfl
  | succ n ih => exact ih (lastBit s)

theorem selectRises_changes {s : State} {list : List Position} {i : Nat} (changes : s.port.transaction = .changes list i) :
    selectRises s = raised s :=
  selectRises_raised fun _ restart => nomatch changes.symm.trans restart

theorem opened_changes {s : State} (h : NoRestart s) :
    opened (fun t => .changes (marked t) 0) s =
      { s with port := { s.port with transaction := .changes (marked s) 0, out := [] } } := by
  rw [opened, selectRises_raised h]
  rfl

/-! ### A CHANGES clocked from its command byte (R174) -/

/-- The bytes of `n` items after the count: the positions, and zero bytes once they are all out (R165). -/
def positionBytes (list : List Position) (n : Nat) : List Byte :=
  (list.take n).map (fun p => lowByte p.val) ++ List.replicate (n - list.length) 0

theorem positionBytes_succ_of_position {list : List Position} {n : Nat} {p : Position} (position : list[n]? = some p) :
    positionBytes list (n + 1) = positionBytes list n ++ [lowByte p.val] := by
  obtain ⟨inside, -⟩ := List.getElem?_eq_some_iff.mp position
  have noZeros : n - list.length = 0 ∧ n + 1 - list.length = 0 := by omega
  simp [positionBytes, noZeros, List.take_add_one, position]

theorem positionBytes_succ_of_past {list : List Position} {n : Nat} (past : list.length ≤ n) :
    positionBytes list (n + 1) = positionBytes list n ++ [0] := by
  rw [positionBytes, positionBytes, List.take_of_length_le past, List.take_of_length_le (by omega), Nat.succ_sub past,
    List.replicate_succ', List.append_assoc]

/-- What a CHANGES opened in `s` has done once its count and `n` more items are out; past the last position its place in the
list stands still (R165, R174). -/
def changesAfter (s : State) (n : Nat) : State :=
  { s with
    agents := marksCleared ((marked s).take n) s.agents
    port := { s.port with
      transaction := .changes (marked s) (min n (marked s).length + 1)
      out := lowByte (marked s).length :: positionBytes (marked s) n } }

theorem changesAfter_transaction (s : State) (n : Nat) :
    (changesAfter s n).port.transaction = .changes (marked s) (min n (marked s).length + 1) := rfl

theorem raised_changesAfter (s : State) (n : Nat) : raised (changesAfter s n) = { s with
    agents := marksCleared ((marked s).take n) s.agents
    port := { s.port with
      transaction := .idle, out := lowByte (marked s).length :: positionBytes (marked s) n } } := by
  simp only [raised, changesAfter]

theorem changesAfter_zero (s : State) :
    changesAfter s 0 = { s with port := { s.port with
      transaction := .changes (marked s) 1, out := [lowByte (marked s).length] } } := by
  simp [changesAfter, positionBytes, marksCleared_nil]

theorem lastBit_changesAfter (s : State) (n : Nat) : lastBit (changesAfter s n) = changesAfter s (n + 1) := by
  have transaction := changesAfter_transaction s n
  by_cases inside : n < (marked s).length
  · have position : (marked s)[n]? = some (marked s)[n] := List.getElem?_eq_getElem inside
    rw [Nat.min_eq_left inside.le] at transaction
    rw [lastBit_changes_position transaction position]
    simp only [changesAfter, alter_marksCleared, positionBytes_succ_of_position position, List.take_add_one, position,
      Option.toList_some, List.cons_append, Nat.min_eq_left (Nat.succ_le_of_lt inside)]
  · have past : (marked s).length ≤ n := Nat.le_of_not_lt inside
    rw [Nat.min_eq_right past] at transaction
    rw [lastBit_changes_past transaction le_rfl]
    simp only [State.emit, State.modPort, changesAfter, positionBytes_succ_of_past past, List.take_of_length_le past,
      List.take_of_length_le (Nat.le_succ_of_le past), Nat.min_eq_right past, Nat.min_eq_right (Nat.le_succ_of_le past),
      List.cons_append]

theorem clockItems_changes {s : State} (h : NoRestart s) (n : Nat) :
    clockItems (n + 1) (opened (fun t => .changes (marked t) 0) s) = changesAfter s n := by
  induction n with
  | zero =>
    rw [opened_changes h, changesAfter_zero]
    exact lastBit_changes_count (s := { s with port := { s.port with transaction := .changes (marked s) 0, out := [] } }) rfl
  | succ n ih => rw [clockItems_succ, ih, lastBit_changesAfter]

/-- Nothing that a CHANGES does makes a cause pending (R175). -/
theorem attend_changes (s : State) (ps : List Position) (t : Transaction) (bytes : List Byte) :
    attend s { s with
        agents := marksCleared ps s.agents, port := { s.port with transaction := t, out := bytes } } =
      { s with agents := marksCleared ps s.agents, port := { s.port with transaction := t, out := bytes } } := by
  refine attend_of_fewer_marks rfl rfl rfl rfl rfl fun p mark => ?_
  change ((marksCleared ps s.agents)[p]).changed = true at mark
  rw [marksCleared_get] at mark
  split at mark
  · exact absurd mark Bool.false_ne_true
  · exact mark

/-! ### The command -/

theorem exec_changes (c : Clocking) (s : State) :
    exec (.changes c) s = .next (attend s (clocked (fun t => .changes (marked t) 0) Transaction.isChanges c s)) := rfl

theorem exec_changes_opens {s : State} (h : NoRestart s) : exec (.changes .opens) s =
    .next { s with port := { s.port with transaction := .changes (marked s) 0, out := [] } } := by
  have line := attend_changes s [] (.changes (marked s) 0) []
  rw [marksCleared_nil] at line
  rw [exec_changes, clocked, opened_changes h, line]

theorem exec_changes_through_zero {s : State} (h : NoRestart s) :
    exec (.changes (.through 0)) s = .next (answered s []) := by
  rw [exec_changes, clocked, clockItems, opened_changes h, selectRises_changes rfl]
  exact congrArg Host.Outcome.next (attend_answered s [])

theorem exec_changes_through_succ {s : State} (h : NoRestart s) (n : Nat) : exec (.changes (.through (n + 1))) s =
    .next { s with
      agents := marksCleared ((marked s).take n) s.agents
      port := { s.port with
        transaction := .idle, out := lowByte (marked s).length :: positionBytes (marked s) n } } := by
  rw [exec_changes, clocked, clockItems_changes h, selectRises_changes (changesAfter_transaction s n), raised_changesAfter,
    attend_changes]

theorem exec_changes_lastBit {s : State} {list : List Position} {i : Nat} {p : Position}
    (changes : s.port.transaction = .changes list (i + 1)) (position : list[i]? = some p) :
    exec (.changes .lastBit) s = .next { s with
      agents := alter s.agents p fun a => { a with changed := false }
      port := { s.port with transaction := .changes list (i + 2), out := s.port.out ++ [lowByte p.val] } } := by
  have underway : s.port.transaction.isChanges = true := by rw [changes]; rfl
  have cleared := alter_marksCleared [] s.agents p
  rw [marksCleared_nil] at cleared
  rw [exec_changes, clocked, if_pos underway, lastBit_changes_position changes position, cleared, attend_changes]

/-- Settles O35: the whole transaction by its items, and the last bit of one position's byte. -/
theorem changesClearsTheMarksItReturns : Obligations.ChangesClearsTheMarksItReturns :=
  ⟨fun _ h => ⟨exec_changes_through_zero h, exec_changes_opens h, exec_changes_through_succ h⟩,
    fun _ _ _ _ changes position => exec_changes_lastBit changes position⟩

end Sys2Proof.Machine
end

section
/-! PROOFS of the invariants of every step. First the invariants read block by block; then `Keeps`, the relation of two
states across which all six survive; then one rule for each block that an operation changes. The operations and the
commands follow the model's own files, each shown to keep the invariants through the operations it is made of. -/

namespace Sys2Proof.Machine

/-! ### The invariants, block by block -/

/-- The accumulators of an agent record are at 65535 or below (R1). -/
structure AgentCounts.Fit (n : AgentCounts) : Prop where
  answered : n.answered ≤ 65535
  talk : n.talk ≤ 65535
  wrap : n.wrap ≤ 65535
  overrun : n.overrun ≤ 65535
  rona : n.rona ≤ 65535

/-- The accumulators of a group are at 65535 or below (R46). -/
structure GroupCounts.Fit (n : GroupCounts) : Prop where
  offeredIn : n.offeredIn ≤ 65535
  answeredLocal : n.answeredLocal ≤ 65535
  answeredByPeers : n.answeredByPeers ≤ 65535
  takenFromPeers : n.takenFromPeers ≤ 65535
  abandoned : n.abandoned ≤ 65535
  diverted : n.diverted ≤ 65535
  ronaReturns : n.ronaReturns ≤ 65535

/-- The counters of the Treatment Engine are at 65535 or below (R82). -/
structure Treatment.Fit (t : Treatment) : Prop where
  shortages : t.shortages ≤ 65535
  stalls : t.stalls ≤ 65535

/-- The underrun count of every stream is at 65535 or below (R104). -/
def ClipFetch.Counted (c : ClipFetch) : Prop := ∀ n : StreamId, c.streams[n].underruns ≤ 65535

/-- Every FIFO has room for what it holds and what is on its way (R104, R107, R108). -/
structure ClipFetch.Fit (c : ClipFetch) : Prop where
  level : ∀ n : StreamId, c.streams[n].fifo.length ≤ 64
  epoch : ∀ r, c.inFlight = some r → r.epoch ≤ c.streams[r.stream].epoch
  room : ∀ r, c.inFlight = some r → r.epoch = c.streams[r.stream].epoch → c.streams[r.stream].fifo.length + r.count ≤ 64

/-- The counters of the Bus Controller are at 65535 or below (R133). -/
structure Bus.Counted (b : Bus) : Prop where
  framesSent : b.framesSent ≤ 65535
  framesReceived : b.framesReceived ≤ 65535
  checkErrors : b.checkErrors ≤ 65535
  collisions : b.collisions ≤ 65535
  dropped : b.dropped ≤ 65535
  repliesLost : b.repliesLost ≤ 65535

/-- The outbound queues, the attempts and the drop run are in their bounds (R118, R120, R125, R131). -/
structure Bus.Fit (b : Bus) : Prop where
  replies : b.replies.length ≤ 8
  ordinary : b.ordinary.length ≤ 8
  attempts : b.attempts ≤ 15
  dropRun : b.dropRun ≤ 3
  sending : b.station.sendsReplies = true → b.dropRun ≤ 2

/-- The bus part of `SendersAgree` (R118, R119, R122, R125, R128). -/
structure Bus.Sends (b : Bus) : Prop where
  replies : b.replies ≠ [] → b.station.sendsReplies = true
  ordinary : b.ordinary ≠ [] → b.station.sendsOrdinary = true
  slot : b.slot.isSome = true → b.station.sendsSummaries = true
  replyKinds : ∀ f ∈ b.replies, Lane.carries .reply f.body
  ordinaryKinds : ∀ f ∈ b.ordinary, Lane.carries .ordinary f.body
  inHand : ∀ l, b.inHand = some l → laneAllowed b.station l = true ∧ (b.headOf l).isSome = true
  line : ∀ f, b.line = some f → b.id = some f.source ∧
    ∃ l, b.inHand = some l ∧ Lane.carries l f.body ∧ b.headOf l = some ⟨f.dest, f.body⟩

theorem bounded_iff (s : State) : Bounded s ↔ s.port.directives.length ≤ 32 ∧ s.bus.Fit ∧ s.exch.claims.length ≤ 8 ∧
    s.time.frames < 800 ∧ ∀ g : Group, 1 ≤ s.aht[g] ∧ s.aht[g] ≤ 3600 := by
  constructor
  · rintro ⟨directives, replies, ordinary, claims, frames, attempts, dropRun, sending, aht⟩
    exact ⟨directives, ⟨replies, ordinary, attempts, dropRun, sending⟩, claims, frames, aht⟩
  · rintro ⟨directives, ⟨replies, ordinary, attempts, dropRun, sending⟩, claims, frames, aht⟩
    exact ⟨directives, replies, ordinary, claims, frames, attempts, dropRun, sending, aht⟩

theorem countersBounded_iff (s : State) : CountersBounded s ↔ (∀ p, (s.agent p).counts.Fit) ∧
    (∀ g : Group, s.counts[g].Fit) ∧ s.clips.Counted ∧ s.deferrals ≤ 65535 ∧ s.treat.Fit ∧ s.exch.stale ≤ 65535 ∧
    s.load.clamped ≤ 65535 ∧ s.bus.Counted := by
  constructor
  · rintro ⟨agents, groups, clips, deferrals, shortages, stalls, stale, clamped, sent, received, errors, collisions,
      dropped, lost⟩
    refine ⟨fun p => ?_, fun g => ?_, clips, deferrals, ⟨shortages, stalls⟩, stale, clamped,
      ⟨sent, received, errors, collisions, dropped, lost⟩⟩
    · obtain ⟨answered, talk, wrap, overrun, rona⟩ := agents p
      exact ⟨answered, talk, wrap, overrun, rona⟩
    · obtain ⟨offered, local', peers, taken, abandoned, diverted, rona⟩ := groups g
      exact ⟨offered, local', peers, taken, abandoned, diverted, rona⟩
  · rintro ⟨agents, groups, clips, deferrals, ⟨shortages, stalls⟩, stale, clamped,
      ⟨sent, received, errors, collisions, dropped, lost⟩⟩
    refine ⟨fun p => ?_, fun g => ?_, clips, deferrals, shortages, stalls, stale, clamped, sent, received, errors,
      collisions, dropped, lost⟩
    · obtain ⟨answered, talk, wrap, overrun, rona⟩ := agents p
      exact ⟨answered, talk, wrap, overrun, rona⟩
    · obtain ⟨offered, local', peers, taken, abandoned, diverted, rona⟩ := groups g
      exact ⟨offered, local', peers, taken, abandoned, diverted, rona⟩

theorem fifosFit_iff (s : State) : FifosFit s ↔ s.clips.Fit := by
  constructor
  · rintro ⟨level, flight⟩
    exact ⟨level, fun r h => (flight r h).1, fun r h => (flight r h).2⟩
  · rintro ⟨level, epoch, room⟩
    exact ⟨level, fun r h => ⟨epoch r h, room r h⟩⟩

theorem sendersAgree_iff (s : State) :
    SendersAgree s ↔ (s.load.reading.isSome = true → s.bus.station = .starting) ∧ s.bus.Sends := by
  constructor
  · rintro ⟨reading, replies, ordinary, slot, replyKinds, ordinaryKinds, inHand, line⟩
    exact ⟨reading, replies, ordinary, slot, replyKinds, ordinaryKinds, inHand, line⟩
  · rintro ⟨reading, replies, ordinary, slot, replyKinds, ordinaryKinds, inHand, line⟩
    exact ⟨reading, replies, ordinary, slot, replyKinds, ordinaryKinds, inHand, line⟩

/-- What the group queues know of a call: its group, its class, its arrival and whether it is CONNECTED (R37). -/
def Call.place (k : Call) : Group × Fin 4 × Nat × Bool := (k.group, k.priority, k.arrival, decide (k.state = .connected))

theorem Call.place_eq_iff (j k : Call) : j.place = k.place ↔ j.group = k.group ∧ j.priority = k.priority ∧
    j.arrival = k.arrival ∧ (j.state = .connected ↔ k.state = .connected) := by
  simp [Call.place]

/-! ### Keeping the invariants -/

/-- Each of the six invariants survives from `s` to `t`. -/
structure Keeps (s t : State) : Prop where
  bounded : Bounded s → Bounded t
  counters : CountersBounded s → CountersBounded t
  fifos : FifosFit s → FifosFit t
  bindings : BindingsAgree s → BindingsAgree t
  queues : QueuesAgree s → QueuesAgree t
  senders : SendersAgree s → SendersAgree t

namespace Keeps

theorem refl (s : State) : Keeps s s := ⟨id, id, id, id, id, id⟩

theorem trans {s t u : State} (h : Keeps s t) (k : Keeps t u) : Keeps s u :=
  ⟨k.bounded ∘ h.bounded, k.counters ∘ h.counters, k.fifos ∘ h.fifos, k.bindings ∘ h.bindings, k.queues ∘ h.queues,
    k.senders ∘ h.senders⟩

theorem of_eq {s t : State} (h : t = s) : Keeps s t := h ▸ refl s

theorem foldl {α : Type} {s t : State} (h : Keeps s t) {f : State → α → State} (each : ∀ u a, Keeps u (f u a))
    (l : List α) : Keeps s (l.foldl f t) := by
  induction l generalizing t with
  | nil => exact h
  | cons a l ih => exact ih (h.trans (each t a))

variable {s t : State}

/-! ### The blocks -/

/-- No invariant reads the configuration, the highway, the Peer View, the Builder, the waiting commands, or of the Shelf
Port anything but how many directives it holds. -/
theorem outside (h : Keeps s t) (cfg : Option Configuration) (highway : Vector (Option Byte) 32) (peers : PeerView)
    (builder : Builder) (port : Port) (pending : List Instr)
    (room : t.port.directives.length ≤ 32 → port.directives.length ≤ 32) :
    Keeps s { t with cfg, highway, peers, builder, port, pending } :=
  h.trans ⟨fun b => (bounded_iff _).2 (by
    obtain ⟨directives, rest⟩ := (bounded_iff _).1 b
    exact ⟨room directives, rest⟩), id, id, id, id, id⟩

theorem withPeers (h : Keeps s t) (peers : PeerView) : Keeps s { t with peers } :=
  h.outside t.cfg t.highway peers t.builder t.port t.pending id

theorem withBuilder (h : Keeps s t) (builder : Builder) : Keeps s { t with builder } :=
  h.outside t.cfg t.highway t.peers builder t.port t.pending id

theorem withHighway (h : Keeps s t) (highway : Vector (Option Byte) 32) : Keeps s { t with highway } :=
  h.outside t.cfg highway t.peers t.builder t.port t.pending id

theorem withPort (h : Keeps s t) (port : Port) (room : t.port.directives.length ≤ 32 → port.directives.length ≤ 32) :
    Keeps s { t with port } :=
  h.outside t.cfg t.highway t.peers t.builder port t.pending room

theorem modPort (h : Keeps s t) (f : Port → Port)
    (room : t.port.directives.length ≤ 32 → (f t.port).directives.length ≤ 32) : Keeps s (t.modPort f) := h.withPort _ room

theorem modBuilder (h : Keeps s t) (f : Builder → Builder) : Keeps s (t.modBuilder f) := h.withBuilder _

theorem withTime (h : Keeps s t) (time : Timebase) (frames : t.time.frames < 800 → time.frames < 800)
    (later : t.time.ds ≤ time.ds) : Keeps s { t with time } := by
  refine h.trans ⟨fun b => (bounded_iff _).2 ?_, id, id, id, ?_, id⟩
  · obtain ⟨directives, bus, claims, below, aht⟩ := (bounded_iff _).1 b
    exact ⟨directives, bus, claims, frames below, aht⟩
  · rintro ⟨once, queued, ordered, arrived, load⟩
    exact ⟨once, queued, ordered, fun c k held => (arrived c k held).trans later, load⟩

theorem withCounts (h : Keeps s t) (counts : Vector GroupCounts 16)
    (fit : ∀ g : Group, t.counts[g].Fit → counts[g].Fit) : Keeps s { t with counts } :=
  h.trans ⟨id, fun b => (countersBounded_iff _).2 (by
    obtain ⟨agents, groups, rest⟩ := (countersBounded_iff _).1 b
    exact ⟨agents, fun g => fit g (groups g), rest⟩), id, id, id, id⟩

theorem withDeferrals (h : Keeps s t) (n : Nat) (fit : n ≤ 65535) : Keeps s { t with deferrals := n } :=
  h.trans ⟨id, fun b => (countersBounded_iff _).2 (by
    obtain ⟨agents, groups, clips, -, rest⟩ := (countersBounded_iff _).1 b
    exact ⟨agents, groups, clips, fit, rest⟩), id, id, id, id⟩

theorem withAht (h : Keeps s t) (aht : Vector Nat 16)
    (fit : (∀ g : Group, 1 ≤ t.aht[g] ∧ t.aht[g] ≤ 3600) → ∀ g : Group, 1 ≤ aht[g] ∧ aht[g] ≤ 3600) :
    Keeps s { t with aht } :=
  h.trans ⟨fun b => (bounded_iff _).2 (by
    obtain ⟨directives, bus, claims, frames, figures⟩ := (bounded_iff _).1 b
    exact ⟨directives, bus, claims, frames, fit figures⟩), id, id, id, id, id⟩

theorem withTreat (h : Keeps s t) (treat : Treatment) (fit : t.treat.Fit → treat.Fit) : Keeps s { t with treat } :=
  h.trans ⟨id, fun b => (countersBounded_iff _).2 (by
    obtain ⟨agents, groups, clips, deferrals, counters, rest⟩ := (countersBounded_iff _).1 b
    exact ⟨agents, groups, clips, deferrals, fit counters, rest⟩), id, id, id, id⟩

theorem withClips (h : Keeps s t) (clips : ClipFetch) (counted : t.clips.Counted → clips.Counted)
    (fit : t.clips.Fit → clips.Fit) : Keeps s { t with clips } :=
  h.trans ⟨id, fun b => (countersBounded_iff _).2 (by
    obtain ⟨agents, groups, underruns, rest⟩ := (countersBounded_iff _).1 b
    exact ⟨agents, groups, counted underruns, rest⟩), fun f => (fifosFit_iff _).2 (fit ((fifosFit_iff _).1 f)), id, id, id⟩

theorem modTime (h : Keeps s t) (f : Timebase → Timebase) (frames : t.time.frames < 800 → (f t.time).frames < 800)
    (later : t.time.ds ≤ (f t.time).ds) : Keeps s (t.modTime f) := h.withTime _ frames later

theorem modClips (h : Keeps s t) (f : ClipFetch → ClipFetch) (counted : t.clips.Counted → (f t.clips).Counted)
    (fit : t.clips.Fit → (f t.clips).Fit) : Keeps s (t.modClips f) := h.withClips _ counted fit

theorem withStale (h : Keeps s t) (n : Nat) (fit : n ≤ 65535) : Keeps s { t with exch := { t.exch with stale := n } } :=
  h.trans ⟨id, fun b => (countersBounded_iff _).2 (by
    obtain ⟨agents, groups, clips, deferrals, treat, -, rest⟩ := (countersBounded_iff _).1 b
    exact ⟨agents, groups, clips, deferrals, treat, fit, rest⟩), id, id, id, id⟩

theorem withClamped (h : Keeps s t) (n : Nat) (fit : n ≤ 65535) :
    Keeps s { t with load := { t.load with clamped := n } } :=
  h.trans ⟨id, fun b => (countersBounded_iff _).2 (by
    obtain ⟨agents, groups, clips, deferrals, treat, stale, -, bus⟩ := (countersBounded_iff _).1 b
    exact ⟨agents, groups, clips, deferrals, treat, stale, fit, bus⟩), id, id, id, id⟩

/-- The station may leave STARTING only with no load running. -/
theorem withBus (h : Keeps s t) (bus : Bus)
    (loading : t.load.reading.isSome = true → t.bus.station = .starting → bus.station = .starting)
    (fit : t.bus.Fit → bus.Fit) (counted : t.bus.Counted → bus.Counted)
    (sends : SendersAgree s → t.bus.Sends → bus.Sends) : Keeps s { t with bus } := by
  refine ⟨fun b => (bounded_iff _).2 ?_, fun b => (countersBounded_iff _).2 ?_, h.fifos, h.bindings, fun agree => ?_,
    fun agree => (sendersAgree_iff _).2 ?_⟩
  · obtain ⟨directives, within, rest⟩ := (bounded_iff _).1 (h.bounded b)
    exact ⟨directives, fit within, rest⟩
  · obtain ⟨agents, groups, clips, deferrals, treat, stale, clamped, counters⟩ := (countersBounded_iff _).1 (h.counters b)
    exact ⟨agents, groups, clips, deferrals, treat, stale, clamped, counted counters⟩
  · obtain ⟨once, queued, ordered, arrived, load⟩ := h.queues agree
    exact ⟨once, queued, ordered, arrived, fun reading => ⟨loading reading (load reading).1, (load reading).2⟩⟩
  · obtain ⟨load, frames⟩ := (sendersAgree_iff _).1 (h.senders agree)
    exact ⟨fun reading => loading reading (load reading), sends agree frames⟩

/-! ### Agents and claims -/

theorem boundTo_congr {a b : Agent} (same : a.state.binding = b.state.binding) (r : CallRef) :
    a.boundTo r = b.boundTo r := by
  simp only [Agent.boundTo, same]

theorem not_boundTo_of_unbound {a : Agent} (unbound : a.state.binding = none) (r : CallRef) : a.boundTo r = false := by
  simp only [Agent.boundTo, unbound]

/-- An agent may lose its binding, and CLAIMING stays as it was. -/
theorem withAgents (h : Keeps s t) (agents : Vector Agent 48)
    (bound : ∀ p : Position, agents[p].state.binding = none ∨ agents[p].state.binding = (t.agent p).state.binding)
    (claiming : ∀ p : Position, (∃ n, agents[p].state = .claiming n) ↔ ∃ n, (t.agent p).state = .claiming n)
    (fit : ∀ p : Position, (t.agent p).counts.Fit → agents[p].counts.Fit) : Keeps s { t with agents } := by
  have lessBound (p : Position) (r : CallRef) (yes : agents[p].boundTo r = true) : (t.agent p).boundTo r = true := by
    rcases bound p with unbound | same
    · exact absurd yes (by rw [not_boundTo_of_unbound unbound]; decide)
    · rwa [← boundTo_congr same]
  refine h.trans ⟨id, fun b => (countersBounded_iff _).2 ?_, id, ?_, id, id⟩
  · obtain ⟨counters, rest⟩ := (countersBounded_iff _).1 b
    exact ⟨fun p => fit p (counters p), rest⟩
  · rintro ⟨unique, claims, once⟩
    exact ⟨fun p q r toP toQ => unique p q r (lessBound p r toP) (lessBound q r toQ),
      fun p => (claims p).trans (claiming p).symm, once⟩

theorem alterAgent (h : Keeps s t) (p : Position) (f : Agent → Agent)
    (bound : (f (t.agent p)).state.binding = none ∨ (f (t.agent p)).state.binding = (t.agent p).state.binding)
    (claiming : (∃ n, (f (t.agent p)).state = .claiming n) ↔ ∃ n, (t.agent p).state = .claiming n)
    (fit : (t.agent p).counts.Fit → (f (t.agent p)).counts.Fit) : Keeps s (t.alterAgent p f) := by
  have read (q : Position) : (alter t.agents p f)[q] = if p = q then f (t.agent p) else t.agent q := alter_get ..
  refine h.withAgents _ (fun q => ?_) (fun q => ?_) (fun q => ?_) <;> rw [read]
  all_goals by_cases same : p = q
  all_goals simp only [same, if_true, if_false, or_true, imp_self]
  · exact same ▸ bound
  · exact same ▸ claiming
  · exact same ▸ fit

/-- The record of `p` gets a state that is not CLAIMING and its claim record goes; it keeps its binding, loses it, or is
bound to a reference that no record is bound to (R13, R17). -/
theorem seated (h : Keeps s t) (p : Position) (st : AgentState) (notClaiming : ∀ n, st ≠ .claiming n)
    (bound : st.binding = none ∨ st.binding = (t.agent p).state.binding ∨
      ∃ b, st.binding = some b ∧ ∀ q, (t.agent q).boundTo b.ref = false) :
    Keeps s { t with
      agents := alter t.agents p fun a => { a with state := st }
      exch := { t.exch with claims := t.exch.claims.filter fun r => r.position ≠ p } } := by
  have read (q : Position) : (alter t.agents p fun a => { a with state := st })[q] =
      if p = q then { t.agent p with state := st } else t.agent q := alter_get ..
  refine h.trans ⟨fun b => (bounded_iff _).2 ?_, fun b => (countersBounded_iff _).2 ?_, id, ?_, id, id⟩
  · obtain ⟨directives, bus, claims, rest⟩ := (bounded_iff _).1 b
    exact ⟨directives, bus, (List.length_filter_le ..).trans claims, rest⟩
  · obtain ⟨counters, rest⟩ := (countersBounded_iff _).1 b
    refine ⟨fun q => ?_, rest⟩
    change (alter t.agents p fun a => { a with state := st })[q].counts.Fit
    rw [read]
    by_cases same : p = q
    · rw [if_pos same]
      exact counters p
    · rw [if_neg same]
      exact counters q
  · rintro ⟨unique, claims, once⟩
    refine ⟨fun q q' r toQ toQ' => ?_, fun q => ?_, ?_⟩
    · change (alter t.agents p fun a => { a with state := st })[q].boundTo r = true at toQ
      change (alter t.agents p fun a => { a with state := st })[q'].boundTo r = true at toQ'
      rw [read] at toQ toQ'
      rcases bound with unbound | same | ⟨b, isBound, free⟩
      · grind [Agent.boundTo]
      · grind [Agent.boundTo]
      · grind [Agent.boundTo]
    · change _ ↔ ∃ n, (alter t.agents p fun a => { a with state := st })[q].state = .claiming n
      rw [read]
      by_cases same : p = q
      · simp [same, notClaiming]
      · rw [if_neg same, ← claims q]
        simp only [List.mem_filter, decide_eq_true_eq]
        exact exists_congr fun x => ⟨fun ⟨⟨inTable, _⟩, at'⟩ => ⟨inTable, at'⟩,
          fun ⟨inTable, at'⟩ => ⟨⟨inTable, fun other => same (other.symm.trans at')⟩, at'⟩⟩
    · exact once.sublist (List.filter_sublist.map _)

/-- A READY agent becomes CLAIMING with one claim record more, in a table that has room for it (R17, R147). -/
theorem claimed (h : Keeps s t) (p : Position) (since : Nat) (ready : (t.agent p).state = .ready since) (x : Claim)
    (names : x.position = p) (room : t.exch.claims.length < 8) :
    Keeps s { t with
      agents := alter t.agents p fun a => { a with state := .claiming since }
      exch := { t.exch with claims := t.exch.claims ++ [x] } } := by
  have read (q : Position) : (alter t.agents p fun a => { a with state := .claiming since })[q] =
      if p = q then { t.agent p with state := .claiming since } else t.agent q := alter_get ..
  refine h.trans ⟨fun b => (bounded_iff _).2 ?_, fun b => (countersBounded_iff _).2 ?_, id, ?_, id, id⟩
  · obtain ⟨directives, bus, -, rest⟩ := (bounded_iff _).1 b
    exact ⟨directives, bus, by simpa using room, rest⟩
  · obtain ⟨counters, rest⟩ := (countersBounded_iff _).1 b
    refine ⟨fun q => ?_, rest⟩
    change (alter t.agents p fun a => { a with state := .claiming since })[q].counts.Fit
    rw [read]
    by_cases same : p = q
    · rw [if_pos same]
      exact counters p
    · rw [if_neg same]
      exact counters q
  · rintro ⟨unique, claims, once⟩
    have unclaimed : ∀ y ∈ t.exch.claims, y.position ≠ p := fun y inTable at' => by
      obtain ⟨n, claiming⟩ := (claims p).1 ⟨y, inTable, at'⟩
      simp [ready] at claiming
    refine ⟨fun q q' r toQ toQ' => ?_, fun q => ?_, ?_⟩
    · change (alter t.agents p fun a => { a with state := .claiming since })[q].boundTo r = true at toQ
      change (alter t.agents p fun a => { a with state := .claiming since })[q'].boundTo r = true at toQ'
      rw [read] at toQ toQ'
      grind [Agent.boundTo, AgentState.binding]
    · change _ ↔ ∃ n, (alter t.agents p fun a => { a with state := .claiming since })[q].state = .claiming n
      rw [read]
      by_cases same : p = q
      · simp [same, ← same ▸ names]
      · rw [if_neg same, ← claims q]
        simp [names, same]
    · simp only [List.map_append, List.map_cons, List.map_nil, List.nodup_append, List.nodup_singleton, true_and]
      refine ⟨once, ?_⟩
      rintro _ inTable _ new rfl
      obtain ⟨y, mem, rfl⟩ := List.mem_map.1 inTable
      exact unclaimed y mem ((List.mem_singleton.1 new).trans names)

/-! ### Calls and queues -/

/-- A call stays where it is in its queue when its group, its class, its arrival and whether it is CONNECTED stay. -/
theorem withCalls (h : Keeps s t) (calls : Vector CallSlot 64)
    (same : ∀ c : Slot, calls[c].call.map Call.place = (t.callAt c).map Call.place) : Keeps s { t with calls } := by
  refine h.trans ⟨id, id, id, id, ?_, id⟩
  have back {c : Slot} {k : Call} (held : calls[c].call = some k) : ∃ j, t.callAt c = some j ∧ j.place = k.place :=
    Option.map_eq_some_iff.1 ((same c).symm.trans (congrArg (Option.map Call.place) held))
  have forth {c : Slot} {k : Call} (held : t.callAt c = some k) : ∃ j, calls[c].call = some j ∧ j.place = k.place :=
    Option.map_eq_some_iff.1 ((same c).trans (congrArg (Option.map Call.place) held))
  rintro ⟨once, queued, ordered, arrived, load⟩
  refine ⟨once, fun g c => ?_, fun g => (ordered g).imp fun {c d} order j k heldC heldD => ?_, fun c k held => ?_,
    fun reading => ⟨(load reading).1, fun c => ?_⟩⟩
  · refine (queued g c).trans ⟨fun ⟨k, held, inGroup, waits⟩ => ?_, fun ⟨k, held, inGroup, waits⟩ => ?_⟩
    · obtain ⟨j, heldJ, place⟩ := forth held
      obtain ⟨group, -, -, connected⟩ := (Call.place_eq_iff _ _).1 place
      exact ⟨j, heldJ, group.trans inGroup, fun now => waits (connected.1 now)⟩
    · obtain ⟨j, heldJ, place⟩ := back held
      obtain ⟨group, -, -, connected⟩ := (Call.place_eq_iff _ _).1 place
      exact ⟨j, heldJ, group.trans inGroup, fun now => waits (connected.1 now)⟩
  · obtain ⟨j', heldJ, placeJ⟩ := back heldC
    obtain ⟨k', heldK, placeK⟩ := back heldD
    obtain ⟨-, classJ, arrivalJ, -⟩ := (Call.place_eq_iff _ _).1 placeJ
    obtain ⟨-, classK, arrivalK, -⟩ := (Call.place_eq_iff _ _).1 placeK
    rw [← classJ, ← classK, ← arrivalJ, ← arrivalK]
    exact order j' k' heldJ heldK
  · obtain ⟨j, heldJ, place⟩ := back held
    obtain ⟨-, -, arrival, -⟩ := (Call.place_eq_iff _ _).1 place
    exact arrival ▸ arrived c j heldJ
  · have none := (load reading).2 c
    have mapped := same c
    rw [none, Option.map_none, Option.map_eq_none_iff] at mapped
    exact mapped

theorem alterSlot (h : Keeps s t) (c : Slot) (f : CallSlot → CallSlot)
    (same : (f (t.slotRec c)).call.map Call.place = (t.callAt c).map Call.place) : Keeps s (t.alterSlot c f) := by
  have read (d : Slot) : (alter t.calls c f)[d] = if c = d then f (t.slotRec c) else t.slotRec d := alter_get ..
  refine h.withCalls _ fun d => ?_
  rw [read]
  by_cases at' : c = d
  · rw [if_pos at', ← at']
    exact same
  · rw [if_neg at']
    rfl

theorem alterCall (h : Keeps s t) (c : Slot) (f : Call → Call) (same : ∀ k, t.callAt c = some k → (f k).place = k.place) :
    Keeps s (t.alterCall c f) := by
  refine h.alterSlot c _ ?_
  change ((t.callAt c).map f).map Call.place = _
  cases held : t.callAt c with
  | none => rfl
  | some k => exact congrArg some (same k held)

/-- A call leaves its queue as it is freed, or becomes CONNECTED (R34, R36). -/
theorem left (h : Keeps s t) {c : Slot} {k : Call} (held : t.callAt c = some k) (f : CallSlot → CallSlot)
    (gone : ∀ j, (f (t.slotRec c)).call = some j → j.state = .connected ∧ j.arrival = k.arrival) :
    Keeps s { t with
      calls := alter t.calls c f
      queues := alter t.queues k.group fun q => q.filter fun d => d ≠ c } := by
  let u : State := { t with
    calls := alter t.calls c f
    queues := alter t.queues k.group fun q => q.filter fun d => d ≠ c }
  have readSlot (d : Slot) : u.callAt d = if c = d then (f (t.slotRec c)).call else t.callAt d :=
    (congrArg CallSlot.call (alter_get ..)).trans (apply_ite ..)
  have readQueue (g : Group) : u.queue g = if k.group = g then (t.queue k.group).filter fun d => d ≠ c else t.queue g :=
    alter_get ..
  refine h.trans (u := u) ⟨id, id, id, id, ?_, id⟩
  rintro ⟨once, queued, ordered, arrived, load⟩
  have inQueue (g : Group) (d : Slot) : d ∈ u.queue g ↔ d ∈ t.queue g ∧ d ≠ c := by
    rw [readQueue]
    by_cases home : k.group = g
    · simp [home]
    · rw [if_neg home, iff_self_and]
      rintro inG rfl
      obtain ⟨j, heldJ, inGroup, -⟩ := (queued g d).1 inG
      exact home (Option.some.inj (held.symm.trans heldJ) ▸ inGroup)
  have sub (g : Group) : (u.queue g).Sublist (t.queue g) := by
    rw [readQueue]
    split
    · next home => exact home ▸ List.filter_sublist
    · exact List.Sublist.refl _
  refine ⟨fun g => (once g).sublist (sub g), fun g d => ?_, fun g => ?_, fun d j heldD => ?_,
    fun reading => absurd (held.symm.trans ((load reading).2 c)) (by simp)⟩
  · rw [inQueue, queued, readSlot]
    by_cases same : c = d
    · rw [if_pos same]
      exact ⟨fun ⟨_, other⟩ => absurd same.symm other, fun ⟨j, heldJ, _, waits⟩ => absurd (gone j heldJ).1 waits⟩
    · rw [if_neg same]
      exact and_iff_left (Ne.symm same)
  · refine ((ordered g).sublist (sub g)).imp_of_mem fun {a b} inA inB order => ?_
    rw [readSlot, readSlot, if_neg (Ne.symm ((inQueue g a).1 inA).2), if_neg (Ne.symm ((inQueue g b).1 inB).2)]
    exact order
  · rw [readSlot] at heldD
    by_cases same : c = d
    · rw [if_pos same] at heldD
      exact (gone j heldD).2 ▸ arrived c k held
    · rw [if_neg same] at heldD
      exact arrived d j heldD

/-- A new call takes a free slot and its place in its queue, behind every call of its class or a lower one (R31, R37). -/
theorem seized (h : Keeps s t) {c : Slot} {k : Call} (free : t.callAt c = none) (service : t.outOfService = false)
    (waits : k.state ≠ .connected) (now : k.arrival = t.now) : Keeps s (joinQueue c (occupy c k t)) := by
  have held : (occupy c k t).callAt c = some k := by rw [occupy_callAt, if_pos rfl]
  have joined : joinQueue c (occupy c k t) = { occupy c k t with
      queues := alter t.queues k.group (insertAfterLast ((occupy c k t).classAtMost k.priority) c) } := by
    simp only [joinQueue, held]
    rfl
  refine h.trans ⟨fun b => joined ▸ b, fun b => joined ▸ b, fun b => joined ▸ b, fun b => joined ▸ b, fun agree => ?_,
    fun b => joined ▸ b⟩
  obtain ⟨ahead, behind, queue, below, above⟩ := queue_splits_at_class agree k.group k.priority
  rw [joinQueue_occupy free queue (fun d inA => below d inA) fun d inB => above d inB]
  obtain ⟨once, queued, ordered, arrived, load⟩ := agree
  let u : State := { occupy c k t with queues := alter t.queues k.group fun _ => ahead ++ c :: behind }
  have readSlot (d : Slot) : u.callAt d = if c = d then some k else t.callAt d := occupy_callAt c d k t
  have readQueue (g : Group) : u.queue g = if k.group = g then ahead ++ c :: behind else t.queue g := alter_get ..
  have notQueued (g : Group) : c ∉ t.queue g := fun inG => by
    obtain ⟨j, heldJ, -⟩ := (queued g c).1 inG
    simp [free] at heldJ
  have outside : c ∉ ahead ++ behind := queue ▸ notQueued k.group
  have stands (g : Group) {d : Slot} (inG : d ∈ t.queue g) : u.callAt d = t.callAt d := by
    rw [readSlot, if_neg]
    rintro rfl
    exact notQueued g inG
  change QueuesAgree u
  refine ⟨fun g => ?_, fun g d => ?_, fun g => ?_, fun d j heldD => ?_, fun reading => ?_⟩
  · rw [readQueue]
    split
    · have list := once k.group
      rw [queue] at list
      rw [List.nodup_middle, List.nodup_cons]
      exact ⟨outside, list⟩
    · exact once g
  · rw [readQueue, readSlot]
    by_cases same : c = d
    · subst same
      by_cases home : k.group = g
      · simp [home, waits]
      · simp [home, notQueued g]
    · by_cases home : k.group = g
      · rw [if_pos home, if_neg same, ← queued g d, ← home, queue]
        simp [Ne.symm same]
      · rw [if_neg home, if_neg same, ← queued g d]
  · rw [readQueue]
    by_cases home : k.group = g
    · rw [if_pos home]
      have old := ordered k.group
      rw [queue] at old
      rw [List.pairwise_append] at old ⊢
      obtain ⟨oldAhead, oldBehind, across⟩ := old
      have heldA {d} (inA : d ∈ ahead) : u.callAt d = t.callAt d :=
        stands k.group (queue ▸ List.mem_append_left _ inA)
      have heldB {d} (inB : d ∈ behind) : u.callAt d = t.callAt d :=
        stands k.group (queue ▸ List.mem_append_right _ inB)
      have self : u.callAt c = some k := by rw [readSlot, if_pos rfl]
      refine ⟨oldAhead.imp_of_mem fun inA inB order => ?_, List.pairwise_cons.2 ⟨fun d inB i j heldI heldJ => ?_,
        oldBehind.imp_of_mem fun inA inB order => ?_⟩, fun a inA b inRest => ?_⟩
      · rw [heldA inA, heldA inB]
        exact order
      · obtain ⟨j', heldD, beyond⟩ := above d inB
        rw [self] at heldI
        rw [heldB inB, heldD] at heldJ
        cases heldI
        cases heldJ
        exact .inl beyond
      · rw [heldB inA, heldB inB]
        exact order
      · rcases List.mem_cons.1 inRest with rfl | inB
        · intro i j heldI heldJ
          obtain ⟨i', heldD, upTo⟩ := below a inA
          rw [heldA inA] at heldI
          rw [self] at heldJ
          cases heldD.symm.trans heldI
          cases heldJ
          rcases upTo.lt_or_eq with lower | equal
          · exact .inl lower
          · exact .inr ⟨equal, now ▸ arrived a _ heldI⟩
        · rw [heldA inA, heldB inB]
          exact across a inA b inB
    · rw [if_neg home]
      refine (ordered g).imp_of_mem fun inA inB order => ?_
      rw [stands g inA, stands g inB]
      exact order
  · rw [readSlot] at heldD
    split at heldD
    · cases heldD
      exact now.le
    · exact arrived d j heldD
  · have starting : t.bus.station = .starting := (load reading).1
    simp [State.outOfService, starting] at service

end Keeps
end Sys2Proof.Machine
end

section
/-! PROOFS that the shared operations of the block keep the six invariants, in the order of the model's files: the records,
the streams, the treatments, the calls. -/

namespace Sys2Proof.Machine

theorem saturate_le (m n : Nat) : saturate m n ≤ m := by
  rw [saturate_eq_min]
  exact min_le_left ..

theorem count1_le (n : Nat) : count1 n ≤ 65535 := saturate_le ..

theorem countBy_le (n k : Nat) : countBy n k ≤ 65535 := saturate_le ..

namespace Keeps
variable {s t : State}

/-! ### The Shelf Port and the records -/

theorem place (h : Keeps s t) (d : Directive) : Keeps s (t.place d) := by
  unfold State.place
  split
  · next room => exact h.withPort _ fun _ => by simpa [directiveCapacity] using room
  · exact h

theorem await (h : Keeps s t) (w : RoomWait) : Keeps s (t.await w) := by
  unfold State.await
  split
  · exact h
  · exact h.withPort _ id

theorem unawait (h : Keeps s t) (w : RoomWait) : Keeps s (t.unawait w) := h.withPort _ id

theorem drive (h : Keeps s t) (bytes : List Byte) : Keeps s (t.drive bytes) := h.withPort _ id

theorem answer (h : Keeps s t) (o : OutcomeCode) : Keeps s (t.answer o) := h.drive _

theorem clockOut (h : Keeps s t) (n : Nat) : Keeps s (t.clockOut n) := h.withPort _ id

theorem inTransaction (h : Keeps s t) (x : Transaction) : Keeps s (t.inTransaction x) := h.withPort _ id

theorem emit (h : Keeps s t) (bytes : List Byte) : Keeps s (t.emit bytes) := h.withPort _ id

theorem countStale (h : Keeps s t) : Keeps s t.countStale := h.withStale _ (count1_le _)

/-- A record moves between states that are both CLAIMING or both not, and gains no binding. -/
theorem enter (h : Keeps s t) (p : Position) (st : AgentState)
    (bound : st.binding = none ∨ st.binding = (t.agent p).state.binding)
    (claiming : (∃ n, st = .claiming n) ↔ ∃ n, (t.agent p).state = .claiming n) : Keeps s (t.enter p st) := by
  have moved : Keeps s (t.alterAgent p fun a =>
      { a with state := st, changed := true, deferred := if st.readyNow then a.deferred else false }) :=
    h.alterAgent p _ bound claiming id
  unfold State.enter
  cases st.alertingNow
  · exact moved.unawait _
  · exact moved

/-- The claim record of `p` goes as it enters a state other than CLAIMING, bound as before, not at all, or to a reference
that no record is bound to. -/
theorem enterUnclaimed (h : Keeps s t) (p : Position) (st : AgentState) (notClaiming : ∀ n, st ≠ .claiming n)
    (bound : st.binding = none ∨ st.binding = (t.agent p).state.binding ∨
      ∃ b, st.binding = some b ∧ ∀ q, (t.agent q).boundTo b.ref = false) : Keeps s ((removeClaim p t).enter p st) := by
  have seat := h.seated p st notClaiming bound
  have marked := seat.alterAgent p
    (fun a => { a with changed := true, deferred := if st.readyNow then a.deferred else false }) (.inr rfl) .rfl id
  have moved : Keeps s ((removeClaim p t).alterAgent p fun a =>
      { a with state := st, changed := true, deferred := if st.readyNow then a.deferred else false }) := by
    refine marked.trans (of_eq ?_)
    simp only [State.alterAgent, alter_alter, removeClaim, State.modExch]
  unfold State.enter
  cases st.alertingNow
  · exact moved.unawait _
  · exact moved

/-- A call that is not CONNECTED gets another mark. -/
theorem markCall (h : Keeps s t) (c : Slot) (st : CallState) (waits : st ≠ .connected)
    (waited : ∀ k, t.callAt c = some k → k.state ≠ .connected) : Keeps s (t.markCall c st) := by
  have moved : Keeps s (t.alterCall c fun k => { k with state := st }) :=
    h.alterCall c _ fun k held => by simp [Call.place, waits, waited k held]
  unfold State.markCall
  split
  · exact moved
  all_goals exact moved.unawait _

theorem deferCall (h : Keeps s t) (c : Slot) (b : Bool) : Keeps s (t.deferCall c b) := h.alterSlot c _ rfl

theorem deferAgent (h : Keeps s t) (p : Position) (b : Bool) : Keeps s (t.deferAgent p b) :=
  h.alterAgent p _ (.inr rfl) .rfl id

theorem alterContext (h : Keeps s t) (c : Slot) (f : Context → Context) : Keeps s (t.alterContext c f) :=
  h.alterCall c _ fun _ _ => rfl

/-! ### The streams -/

/-- A FIFO that does not grow, in an epoch that does not go back, keeps its room. -/
theorem alterStream (h : Keeps s t) (n : StreamId) (f : Stream → Stream)
    (counted : (t.stream n).underruns ≤ 65535 → (f (t.stream n)).underruns ≤ 65535)
    (level : (f (t.stream n)).fifo.length ≤ (t.stream n).fifo.length)
    (epoch : (t.stream n).epoch ≤ (f (t.stream n)).epoch) : Keeps s (t.alterStream n f) := by
  have read (m : StreamId) : (alter t.clips.streams n f)[m] = if n = m then f (t.stream n) else t.stream m := alter_get ..
  refine h.withClips { t.clips with streams := alter t.clips.streams n f } (fun bounds m => ?_)
    fun ⟨levels, epochs, room⟩ => ⟨fun m => ?_, fun r flight => ?_, fun r flight same => ?_⟩
  · rw [read]
    split
    · exact counted (bounds n)
    · exact bounds m
  · rw [read]
    split
    · exact level.trans (levels n)
    · exact levels m
  · rw [read]
    have before := epochs r flight
    split
    · next at' =>
      subst at'
      exact before.trans epoch
    · exact before
  · have before := epochs r flight
    have fits := room r flight
    rw [read] at same ⊢
    split at same
    · next at' =>
      subst at'
      rw [if_pos rfl]
      change r.epoch ≤ (t.stream r.stream).epoch at before
      change r.epoch = (t.stream r.stream).epoch → (t.stream r.stream).fifo.length + r.count ≤ 64 at fits
      have := fits (by omega)
      omega
    · next other =>
      rw [if_neg other]
      exact fits same

theorem stopStream (h : Keeps s t) (n : StreamId) : Keeps s (stopStream n t) := by
  unfold Machine.stopStream
  split
  · exact h.alterStream n _ id (Nat.zero_le _) (Nat.le_succ _)
  · exact h

/-- A read is granted only to a stream at a level of 32 or less, for 32 bytes or less (R107). -/
theorem grantRead (h : Keeps s t) (n : StreamId) (needs : (t.stream n).needsFetch = true) : Keeps s (grantRead n t) := by
  unfold Machine.grantRead
  cases playing : (t.stream n).playing with
  | none => exact h
  | some p =>
    have level : (t.stream n).fifo.length ≤ 32 := by
      simp only [Stream.needsFetch, playing, readSize, Bool.and_eq_true] at needs
      exact of_decide_eq_true needs.1
    let asked : Stream → Stream := fun x =>
      { x with playing := x.playing.map (Playing.granted t (t.playlistOf n) (min readSize p.bytesLeft)) }
    have epoch : (alter t.clips.streams n asked)[n].epoch = (t.stream n).epoch := by
      rw [alter_get_self]
      rfl
    have fifo : (alter t.clips.streams n asked)[n].fifo = (t.stream n).fifo := by
      rw [alter_get_self]
      rfl
    have moved := h.alterStream n asked id le_rfl le_rfl
    refine moved.withClips _ id fun ⟨levels, _, _⟩ => ⟨levels, ?_, ?_⟩
    · rintro _ ⟨rfl⟩
      exact epoch.ge
    · rintro _ ⟨rfl⟩ -
      change (alter t.clips.streams n asked)[n].fifo.length + min readSize p.bytesLeft ≤ 64
      rw [fifo, readSize]
      omega

theorem fetchTest (h : Keeps s t) : Keeps s (fetchTest t) := by
  unfold Machine.fetchTest
  split
  · exact h
  · split
    · next found => exact h.grantRead _ (List.find?_some (p := fun n => (t.stream n).needsFetch) found)
    · exact h

theorem startStream (h : Keeps s t) (n : StreamId) (clip : Nat) : Keeps s (startStream n clip t) :=
  ((h.stopStream n).alterStream n _ id (Nat.zero_le _) (Nat.le_succ _)).fetchTest

theorem startBed (h : Keeps s t) (b : Bed) : Keeps s (startBed b t) := h.startStream _ _

theorem arriveRead (h : Keeps s t) (bytes : List Byte) : Keeps s (arriveRead bytes t) := by
  unfold Machine.arriveRead
  cases flight : t.clips.inFlight with
  | none => exact h
  | some r =>
    refine fetchTest ?_
    split
    · next kept =>
      have same : (t.stream r.stream).epoch = r.epoch := by simpa using (Bool.and_eq_true_iff.1 kept).2
      have read (m : StreamId) : (alter t.clips.streams r.stream (Stream.receive (bytes.take r.count)))[m] =
          if r.stream = m then Stream.receive (bytes.take r.count) (t.stream r.stream) else t.stream m := alter_get ..
      refine h.withClips _ (fun counted m => ?_) fun ⟨levels, _, room⟩ => ⟨fun m => ?_, by simp, by simp⟩
      · change (alter t.clips.streams r.stream (Stream.receive (bytes.take r.count)))[m].underruns ≤ 65535
        rw [read]
        split
        · exact counted r.stream
        · exact counted m
      · change (alter t.clips.streams r.stream (Stream.receive (bytes.take r.count)))[m].fifo.length ≤ 64
        rw [read]
        split
        · have fits : (t.stream r.stream).fifo.length + r.count ≤ 64 := room r flight same.symm
          simp only [Stream.receive, List.length_append, List.length_take]
          omega
        · exact levels m
    · exact h.withClips _ id fun ⟨levels, _, _⟩ => ⟨levels, by simp, by simp⟩

theorem beginDrive (h : Keeps s t) : Keeps s (beginDrive t) := h.withHighway _

theorem putSample (h : Keeps s t) (n : StreamId) (b : Byte) : Keeps s (putSample n b t) := by
  unfold Machine.putSample
  split
  · exact h.withHighway _
  · exact h

theorem outputSample (h : Keeps s t) (n : StreamId) : Keeps s (outputSample n t).1 := by
  unfold Machine.outputSample
  split
  · exact (h.alterStream n _ (fun _ => count1_le _) le_rfl le_rfl).putSample _ _
  · next p b rest _ _ fifo =>
    have out := (h.alterStream n
      (fun x => { x with
        playing := p.played t (t.playlistOf n), fifo := rest, started := (p.played t (t.playlistOf n)).isSome })
      id (by simp [fifo]) le_rfl).putSample n b
    dsimp only
    split
    · exact out.fetchTest
    · exact out
  · exact h

/-! ### The treatments -/

theorem modVoice (h : Keeps s t) (v : Voice) (x : Option Slot) : Keeps s (t.modVoice v x) :=
  h.withTreat _ fun ⟨shortages, stalls⟩ => ⟨shortages, stalls⟩

theorem listeners (h : Keeps s t) (b : Bed) (f : Nat → Nat) :
    Keeps s (t.modTreat fun x => { x with listeners := alter x.listeners b f }) :=
  h.withTreat _ fun ⟨shortages, stalls⟩ => ⟨shortages, stalls⟩

theorem holdList (h : Keeps s t) (f : List Slot → List Slot) :
    Keeps s (t.modTreat fun x => { x with holdList := f x.holdList }) :=
  h.withTreat _ fun ⟨shortages, stalls⟩ => ⟨shortages, stalls⟩

theorem leaveBed (h : Keeps s t) (x : HeardOn) : Keeps s (leaveBed x t) := by
  unfold Machine.leaveBed
  split
  · next b =>
    dsimp only
    split
    · exact (h.listeners b _).stopStream _
    · exact h.listeners b _
  all_goals exact h

theorem joinBed (h : Keeps s t) (x : HeardOn) : Keeps s (joinBed x t) := by
  unfold Machine.joinBed
  split
  · next b =>
    dsimp only
    split
    · exact (h.listeners b _).startBed _
    · exact h.listeners b _
  all_goals exact h

theorem hearOn (h : Keeps s t) (c : Slot) (x : HeardOn) : Keeps s (hearOn c x t) := by
  unfold Machine.hearOn
  split
  · exact h
  · split
    · exact h
    · split
      · exact h
      · exact (((h.leaveBed _).joinBed _).alterContext _ _).place _

theorem releaseVoice (h : Keeps s t) (c : Slot) : Keeps s (releaseVoice c t) := by
  unfold Machine.releaseVoice
  split
  · exact (h.modVoice _ _).stopStream _
  · exact h

theorem setStep (h : Keeps s t) (c : Slot) (deadline : Option Nat) (digits : Option (List Nat)) :
    Keeps s (setStep c deadline digits t) := h.alterContext _ _

theorem substitute (h : Keeps s t) (c : Slot) (k : Call) (samples : Nat) : Keeps s (substitute c k samples t) :=
  ((h.withTreat { t.treat with shortages := count1 t.treat.shortages } fun ⟨_, stalls⟩ =>
    ⟨count1_le _, stalls⟩).hearOn _ _).setStep _ _ _

theorem playClips (h : Keeps s t) (c : Slot) (k : Call) (clips : List Nat) (digits : Option (List Nat)) :
    Keeps s (playClips c k clips digits t) := by
  unfold Machine.playClips
  split
  · exact (((h.modVoice _ _).startStream _ _).hearOn _ _).setStep _ _ _
  · exact h.substitute _ _ _

theorem startTimed (h : Keeps s t) (c : Slot) (k : Call) (step : TreatStep) : Keeps s (startTimed c k step t) := by
  unfold Machine.startTimed
  split
  · exact ((h.releaseVoice _).hearOn _ _).setStep _ _ _
  · exact ((h.releaseVoice _).hearOn _ _).setStep _ _ _
  · exact h.playClips _ _ _ _
  · exact h.playClips _ _ _ _
  all_goals exact h

theorem stall (h : Keeps s t) (c : Slot) (k : Call) (due : Nat) : Keeps s (stall c k due t) :=
  ((((h.withTreat { t.treat with stalls := count1 t.treat.stalls } fun ⟨shortages, _⟩ =>
    ⟨shortages, count1_le _⟩).releaseVoice _).hearOn _ _).setStep _ _ _).alterContext _ _

theorem walk (h : Keeps s t) (c : Slot) (k : Call) (fuel due : Nat) : Keeps s (walk c k fuel due t) := by
  induction fuel generalizing t due with
  | zero => exact h.stall c k due
  | succ fuel ih =>
    unfold Machine.walk
    split
    · exact h
    · split
      · split
        · exact (h.alterContext _ _).startTimed _ _ _
        · split
          · exact h.stall c k due
          · exact ih (h.alterContext _ _) _
      · split
        · exact h.stall c k due
        · exact ih (h.alterContext _ _) _

theorem walkOn (h : Keeps s t) (c : Slot) : Keeps s (walkOn c t) := by
  unfold Machine.walkOn
  split
  · exact h
  · split
    · exact h
    · exact h.walk _ _ _ _

theorem boundary (h : Keeps s t) (c : Slot) : Keeps s (boundary c t) := by
  unfold Machine.boundary
  split
  · exact h.walkOn c
  · exact (h.alterContext _ _).holdList fun list => list ++ [c]

theorem endStep (h : Keeps s t) (c : Slot) : Keeps s (endStep c t) := by
  unfold Machine.endStep
  split
  · exact h
  · split
    · exact h
    · dsimp only
      split
      · exact ((h.alterContext _ _).alterContext _ _).startTimed _ _ _
      · exact ((h.alterContext _ _).alterContext _ _).boundary _

theorem endDeadline (h : Keeps s t) (c : Slot) : Keeps s (endDeadline c t) := by
  unfold Machine.endDeadline
  split
  · exact h
  · split
    · split
      · exact h.endStep c
      · exact (h.alterContext _ _).boundary _
    · exact (h.alterContext _ _).boundary _

theorem clipFinished (h : Keeps s t) (v : Voice) : Keeps s (clipFinished v t) := by
  unfold Machine.clipFinished
  split
  · exact h
  · split
    · exact h
    · split
      · exact (h.alterContext _ _).startStream _ _
      all_goals exact h.endStep _

theorem startTreatment (h : Keeps s t) (c : Slot) : Keeps s (startTreatment c t) := by
  unfold Machine.startTreatment
  split
  · exact h
  · refine boundary ?_ c
    exact h.alterCall c _ fun _ _ => rfl

theorem resumeHead (h : Keeps s t) : Keeps s (resumeHead t) := by
  unfold Machine.resumeHead
  split
  · exact h
  · exact ((h.holdList fun _ => _).alterContext _ _).walkOn _

theorem resumeHeld (h : Keeps s t) (n : Nat) : Keeps s (resumeHeld n t) := by
  induction n generalizing t with
  | zero => exact h
  | succ n ih =>
    unfold Machine.resumeHeld
    split
    · exact h
    · exact ih h.resumeHead

theorem resumeAll (h : Keeps s t) : Keeps s (resumeAll t) := h.resumeHeld _

theorem endTreatment (h : Keeps s t) (c : Slot) : Keeps s (endTreatment c t) := by
  unfold Machine.endTreatment
  split
  · exact h
  · exact (((h.holdList fun list => list.filter fun d => d ≠ c).releaseVoice c).leaveBed _).alterCall c _ fun _ _ => rfl

/-! ### The calls -/

theorem groupCounts (h : Keeps s t) (g : Group) (f : GroupCounts → GroupCounts) (fit : t.counts[g].Fit → (f t.counts[g]).Fit) :
    Keeps s (groupCounts g f t) := by
  have read (i : Group) : (alter t.counts g f)[i] = if g = i then f t.counts[g] else t.counts[i] := alter_get ..
  refine h.withCounts _ fun i bounds => ?_
  rw [read]
  split
  · next same => exact fit (same ▸ bounds)
  · exact bounds

theorem countOffered (h : Keeps s t) (g : Group) : Keeps s (countOffered g t) :=
  h.groupCounts g _ fun fit => { fit with offeredIn := count1_le _ }

theorem countAnsweredLocal (h : Keeps s t) (g : Group) : Keeps s (countAnsweredLocal g t) :=
  h.groupCounts g _ fun fit => { fit with answeredLocal := count1_le _ }

theorem countAnsweredByPeers (h : Keeps s t) (g : Group) : Keeps s (countAnsweredByPeers g t) :=
  h.groupCounts g _ fun fit => { fit with answeredByPeers := count1_le _ }

theorem countTakenFromPeers (h : Keeps s t) (g : Group) : Keeps s (countTakenFromPeers g t) :=
  h.groupCounts g _ fun fit => { fit with takenFromPeers := count1_le _ }

theorem countAbandoned (h : Keeps s t) (g : Group) : Keeps s (countAbandoned g t) :=
  h.groupCounts g _ fun fit => { fit with abandoned := count1_le _ }

theorem countDiverted (h : Keeps s t) (g : Group) : Keeps s (countDiverted g t) :=
  h.groupCounts g _ fun fit => { fit with diverted := count1_le _ }

theorem countRonaReturn (h : Keeps s t) (g : Group) : Keeps s (countRonaReturn g t) :=
  h.groupCounts g _ fun fit => { fit with ronaReturns := count1_le _ }

theorem countAnswer (h : Keeps s t) (k : Call) : Keeps s (countAnswer k t) := by
  unfold Machine.countAnswer
  split
  · exact h.countAnsweredLocal _
  · exact h.countAnsweredByPeers _
  all_goals exact h

end Keeps

/-! The end of a treatment reads no queue and changes none. -/

theorem stopStream_queues (n : StreamId) (queues : Vector (List Slot) 16) (s : State) :
    stopStream n { s with queues } = { stopStream n s with queues } := by
  unfold stopStream
  by_cases playing : (s.stream n).playing.isSome = true
  · have same : ({ s with queues : State }.stream n).playing.isSome = true := playing
    rw [if_pos playing, if_pos same]
    rfl
  · have same : ¬ ({ s with queues : State }.stream n).playing.isSome = true := playing
    rw [if_neg playing, if_neg same]

theorem releaseVoice_queues (c : Slot) (queues : Vector (List Slot) 16) (s : State) :
    releaseVoice c { s with queues } = { releaseVoice c s with queues } := by
  have same : voiceOf c { s with queues } = voiceOf c s := rfl
  cases voice : voiceOf c s with
  | none => rw [releaseVoice_of_none voice, releaseVoice_of_none (same.trans voice)]
  | some v =>
    rw [releaseVoice_of_voice voice, releaseVoice_of_voice (same.trans voice)]
    exact stopStream_queues (voiceStream v) queues (voiceHeld v none s)

theorem leaveBed_queues (x : HeardOn) (queues : Vector (List Slot) 16) (s : State) :
    leaveBed x { s with queues } = { leaveBed x s with queues } := by
  cases x with
  | bed b =>
    rw [leaveBed_bed, leaveBed_bed]
    by_cases last : s.treat.listeners[b] = 1
    · rw [if_pos last, if_pos last]
      exact stopStream_queues (bedStream b) queues (listenersBecome b (fun l => l - 1) s)
    · rw [if_neg last, if_neg last]
      rfl
  | nothing | voice _ | silence => rfl

theorem endTreatment_queues (c : Slot) (queues : Vector (List Slot) 16) (s : State) :
    endTreatment c { s with queues } = { endTreatment c s with queues } := by
  have same : State.contextAt { s with queues } c = s.contextAt c := rfl
  cases context : s.contextAt c with
  | none => rw [endTreatment_of_none context, endTreatment_of_none (same.trans context)]
  | some x =>
    let off : State := { s with treat := { s.treat with holdList := s.treat.holdList.filter fun d => d ≠ c } }
    have ended : leaveBed x.heard (releaseVoice c { off with queues }) =
        { leaveBed x.heard (releaseVoice c off) with queues } := by rw [releaseVoice_queues, leaveBed_queues]
    rw [endTreatment_of_context context, endTreatment_of_context (same.trans context)]
    exact congrArg (callBecomes c fun k => { k with context := none }) ended

end Sys2Proof.Machine
end

section
/-! PROOFS that the operations of the calls, the bus, the Summary Builder, the Peer View and the agents keep the six
invariants. -/

namespace Sys2Proof.Machine

/-- The call in a slot keeps all but its context as its treatment ends. -/
theorem endTreatment_callAt {s : State} {c : Slot} {k : Call} (held : s.callAt c = some k) :
    ∃ j, (endTreatment c s).callAt c = some j ∧ j.group = k.group ∧ j.arrival = k.arrival ∧ j.state = k.state := by
  cases context : s.contextAt c with
  | none => exact ⟨k, by rw [endTreatment_of_none context]; exact held, rfl, rfl, rfl⟩
  | some x =>
    refine ⟨{ k with context := none }, ?_, rfl, rfl, rfl⟩
    rw [endTreatment_of_context context, ← alterCall_becomes, State.alterCall_callAt, if_pos rfl]
    simp [State.callAt] at held ⊢
    simp [held]

namespace Keeps
variable {s t : State}

/-! ### CONNECTED and freed -/

theorem connect (h : Keeps s t) (c : Slot) : Keeps s (connect c t) := by
  cases held : t.callAt c with
  | none => exact h.trans (of_eq (by simp only [Machine.connect, held]))
  | some k =>
    obtain ⟨j, heldJ, group, arrival, -⟩ := endTreatment_callAt held
    have ended := (h.endTreatment c).left heldJ
      (fun r => { r with deferred := false, call := r.call.map fun k =>
        { k with state := .connected, declined := Vector.replicate 15 false, divertPending := false } }) (by
        intro i
        change ((Machine.endTreatment c t).callAt c).map _ = some i → _
        rw [heldJ]
        rintro ⟨rfl⟩
        exact ⟨rfl, rfl⟩)
    rw [connect_eq held, waitEnded, endTreatment_queues, ← countAnswer_counts, ← unawait_unawaited]
    refine countAnswer (unawait (ended.trans (of_eq ?_)) _) k
    have queues : (Machine.endTreatment c t).queues = t.queues := by simp
    rw [queues, group]
    rfl

theorem freeCall (h : Keeps s t) (c : Slot) : Keeps s (freeCall c t) := by
  cases held : t.callAt c with
  | none => exact h.trans (of_eq (by simp only [Machine.freeCall, held]))
  | some k =>
    obtain ⟨j, heldJ, group, -⟩ := endTreatment_callAt held
    have ended := (h.endTreatment c).left heldJ (fun r => ⟨r.gen, false, none⟩) (by simp)
    rw [freeCall_eq held, waitEnded, endTreatment_queues, ← unawait_unawaited, ← unawait_unawaited]
    refine unawait (unawait (ended.trans (of_eq ?_)) _) _
    have queues : (Machine.endTreatment c t).queues = t.queues := by simp
    rw [queues, group]

theorem takeDivert (h : Keeps s t) (c : Slot) : Keeps s (takeDivert c t) := by
  unfold Machine.takeDivert
  split
  · exact h
  · exact ((h.place _).countDiverted _).freeCall _

theorem divertDue (h : Keeps s t) (c : Slot) : Keeps s (divertDue c t) := by
  unfold Machine.divertDue
  dsimp only
  split
  · exact (h.deferCall c false).takeDivert c
  · exact (h.deferCall c false).await _

theorem raiseTier (h : Keeps s t) (c : Slot) (tier : Fin 3) : Keeps s (raiseTier c tier t) :=
  h.alterCall c _ fun _ _ => rfl

/-! ### The bus -/

/-- A change of the bus that leaves the station state. -/
theorem modBus (h : Keeps s t) (f : Bus → Bus) (station : (f t.bus).station = t.bus.station)
    (fit : t.bus.Fit → (f t.bus).Fit) (counted : t.bus.Counted → (f t.bus).Counted) (sends : t.bus.Sends → (f t.bus).Sends) :
    Keeps s (t.modBus f) :=
  h.withBus _ (fun _ starting => station.trans starting) fit counted fun _ => sends

end Keeps

/-- The transmitter takes only what its state lets it send, from a queue that holds it (R118, R128). -/
theorem Bus.nextLane_allowed {b : Bus} {l : Lane} (next : b.nextLane = some l) :
    laneAllowed b.station l = true ∧ (b.headOf l).isSome = true := by
  have head {α : Type} (list : List α) (some : list.isEmpty = false) : list.head?.isSome = true := by
    cases list with
    | nil => cases some
    | cons => rfl
  unfold Bus.nextLane at next
  split at next
  · next ready =>
    cases next
    simp only [Bool.and_eq_true, Bool.not_eq_true'] at ready
    exact ⟨ready.2, head _ ready.1⟩
  · split at next
    · next ready =>
      cases next
      simp only [Bool.and_eq_true, Bool.not_eq_true'] at ready
      exact ⟨ready.2, head _ ready.1⟩
    · split at next
      · next ready =>
        cases next
        simp only [Bool.and_eq_true] at ready
        exact ⟨ready.2, by simpa [Bus.headOf] using ready.1⟩
      · cases next

/-- What `choose` can do: nothing, or take the next queue in hand (R118). -/
theorem Bus.choose_cases (b : Bus) : b.choose = b ∨ b.inHand = none ∧ ∃ l, b.nextLane = some l ∧
    b.choose = { b with inHand := some l, attempts := 0, backoff := none } := by
  unfold Bus.choose
  split
  · next idle ready => exact .inr ⟨idle, _, ready, rfl⟩
  · exact .inl rfl

theorem Bus.Sends.no_line {b : Bus} (sends : b.Sends) (idle : b.inHand = none) : b.line = none := by
  cases line : b.line with
  | none => rfl
  | some f =>
    obtain ⟨-, l, inHand, -⟩ := sends.line f line
    simp [idle] at inHand

theorem Bus.choose_station (b : Bus) : b.choose.station = b.station := by
  rcases b.choose_cases with same | ⟨-, l, -, taken⟩
  · rw [same]
  · rw [taken]

theorem Bus.Sends.choose {b : Bus} (sends : b.Sends) : b.choose.Sends := by
  rcases b.choose_cases with same | ⟨idle, l, ready, taken⟩
  · rwa [same]
  · rw [taken]
    exact { sends with
      inHand := fun m inHand => by
        cases inHand
        exact Bus.nextLane_allowed ready
      line := fun f line => by simp [sends.no_line idle] at line }

theorem Bus.Fit.choose {b : Bus} (fit : b.Fit) : b.choose.Fit := by
  rcases b.choose_cases with same | ⟨-, l, -, taken⟩
  · rwa [same]
  · rw [taken]
    exact { fit with attempts := Nat.zero_le _ }

theorem Bus.Counted.choose {b : Bus} (counted : b.Counted) : b.choose.Counted := by
  rcases b.choose_cases with same | ⟨-, l, -, taken⟩
  · rwa [same]
  · rw [taken]
    exact { counted with }

/-- A frame that joins the tail of the reply queue leaves the frame in hand and the one on the line where they are. -/
theorem Bus.Sends.addReply {b : Bus} (sends : b.Sends) (allowed : b.station.sendsReplies = true) (f : OutFrame)
    (kind : Lane.carries .reply f.body) : Bus.Sends { b with replies := b.replies ++ [f] } := by
  have head (l : Lane) (g : OutFrame) (first : b.headOf l = some g) :
      Bus.headOf { b with replies := b.replies ++ [f] } l = some g := by
    cases l with
    | reply =>
      have first : b.replies.head? = some g := first
      simp [Bus.headOf, List.head?_append, first]
    | ordinary | summary => exact first
  refine { sends with replies := fun _ => allowed, replyKinds := ?_, inHand := fun l inHand => ?_, line := fun g line => ?_ }
  · intro g mem
    rcases List.mem_append.1 mem with old | new
    · exact sends.replyKinds g old
    · exact List.mem_singleton.1 new ▸ kind
  · obtain ⟨may, held⟩ := sends.inHand l inHand
    obtain ⟨g, first⟩ := Option.isSome_iff_exists.1 held
    exact ⟨may, by rw [head l g first]; rfl⟩
  · obtain ⟨source, l, inHand, carried, first⟩ := sends.line g line
    exact ⟨source, l, inHand, carried, head l _ first⟩

theorem Bus.Sends.addOrdinary {b : Bus} (sends : b.Sends) (allowed : b.station.sendsOrdinary = true) (f : OutFrame)
    (kind : Lane.carries .ordinary f.body) : Bus.Sends { b with ordinary := b.ordinary ++ [f] } := by
  have head (l : Lane) (g : OutFrame) (first : b.headOf l = some g) :
      Bus.headOf { b with ordinary := b.ordinary ++ [f] } l = some g := by
    cases l with
    | ordinary =>
      have first : b.ordinary.head? = some g := first
      simp [Bus.headOf, List.head?_append, first]
    | reply | summary => exact first
  refine { sends with ordinary := fun _ => allowed, ordinaryKinds := ?_, inHand := fun l inHand => ?_, line := fun g line => ?_ }
  · intro g mem
    rcases List.mem_append.1 mem with old | new
    · exact sends.ordinaryKinds g old
    · exact List.mem_singleton.1 new ▸ kind
  · obtain ⟨may, held⟩ := sends.inHand l inHand
    obtain ⟨g, first⟩ := Option.isSome_iff_exists.1 held
    exact ⟨may, by rw [head l g first]; rfl⟩
  · obtain ⟨source, l, inHand, carried, first⟩ := sends.line g line
    exact ⟨source, l, inHand, carried, head l _ first⟩

/-- New summary content leaves a summary whose attempt is on the line where it is (R126). -/
theorem Bus.Sends.takeSummary {b : Bus} (sends : b.Sends) (allowed : b.station.sendsSummaries = true) (es : List Entry) :
    (Bus.takeSummary es b).Sends := by
  unfold Bus.takeSummary
  split
  · exact { sends with }
  · next free =>
    refine { sends with slot := fun _ => allowed, inHand := fun l inHand => ?_, line := fun g line => ?_ }
    · obtain ⟨may, held⟩ := sends.inHand l inHand
      refine ⟨may, ?_⟩
      cases l with
      | summary => rfl
      | reply | ordinary => exact held
    · obtain ⟨source, l, inHand, carried, first⟩ := sends.line g line
      refine ⟨source, l, inHand, carried, ?_⟩
      cases l with
      | summary => exact absurd ⟨inHand, by rw [line]; rfl⟩ free
      | reply | ordinary => exact first

namespace Keeps
variable {s t : State}

theorem choose (h : Keeps s t) : Keeps s t.choose :=
  h.modBus _ (Bus.choose_station _) Bus.Fit.choose Bus.Counted.choose Bus.Sends.choose

theorem reply (h : Keeps s t) (p : Station) (body : Body) (kind : Lane.carries .reply body) : Keeps s (t.reply p body) := by
  unfold State.reply
  split
  · next room =>
    unfold State.replyRoom at room
    split at room
    · next allowed =>
      refine choose (h.modBus _ rfl (fun fit => { fit with replies := ?_ }) (fun counted => { counted with })
        fun sends => sends.addReply allowed _ kind)
      simp only [List.length_append, List.length_singleton]
      simp only [laneCapacity] at room
      omega
    · simp at room
  · exact h.modBus _ rfl (fun fit => { fit with }) (fun counted => { counted with repliesLost := count1_le _ })
      fun sends => { sends with }

theorem queueOrdinary (h : Keeps s t) (p : Station) (body : Body) (kind : Lane.carries .ordinary body) :
    Keeps s (t.queueOrdinary p body) := by
  unfold State.queueOrdinary
  split
  · next room =>
    unfold State.ordinaryRoom at room
    split at room
    · next allowed =>
      refine choose (h.modBus _ rfl (fun fit => { fit with ordinary := ?_ }) (fun counted => { counted with })
        fun sends => sends.addOrdinary allowed _ kind)
      simp only [List.length_append, List.length_singleton]
      simp only [laneCapacity] at room
      omega
    · simp at room
  · exact h

/-! ### The Summary Builder -/

theorem placeSummary (h : Keeps s t) (allowed : t.bus.station.sendsSummaries = true) : Keeps s (placeSummary t) := by
  have taken : Keeps s (t.modBus (Bus.takeSummary (buildSummary t))) := by
    refine h.modBus _ (by simp) (fun fit => ?_) (fun counted => ?_) fun sends => sends.takeSummary allowed _
    · unfold Bus.takeSummary
      split <;> exact { fit with }
    · unfold Bus.takeSummary
      split <;> exact { counted with }
  exact taken.choose.withBuilder _

theorem downshift (h : Keeps s t) : Keeps s (downshift t) := by
  unfold Machine.downshift
  split
  · split
    · exact h.withBuilder _
    · exact h.withBuilder _
    · exact h
  · exact h

theorem startBrisk (h : Keeps s t) : Keeps s (startBrisk t) := h.withBuilder _

theorem periodStep (h : Keeps s t) (allowed : t.bus.station.sendsSummaries = true) : Keeps s (periodStep t) := by
  unfold Machine.periodStep
  split
  · exact (h.placeSummary allowed).withBuilder _
  · exact h

end Keeps

/-- A station that sends replies sends summaries (R128). -/
theorem StationState.sendsSummaries_of_sendsReplies {st : StationState} (sends : st.sendsReplies = true) :
    st.sendsSummaries = true := by
  cases st with
  | joining | active => rfl
  | starting | unconfigured | busFault | duplicateId => cases sends

theorem downshift_bus (s : State) : (downshift s).bus = s.bus := by simp

namespace Keeps
variable {s t : State}

theorem ladder (h : Keeps s t) : Keeps s (ladder t) := by
  unfold Machine.ladder
  split
  · next building =>
    have allowed : (Machine.downshift t).bus.station.sendsSummaries = true := by
      rw [downshift_bus]
      exact StationState.sendsSummaries_of_sendsReplies building
    dsimp only
    split
    · exact (h.downshift.placeSummary allowed).startBrisk
    · exact h.downshift.periodStep allowed
  · exact h

theorem noteSent (h : Keeps s t) (body : Body) : Keeps s (noteSent body t) := by
  unfold Machine.noteSent
  split
  · exact h.withBuilder _
  all_goals exact h

/-- The station may enter JOINING from a state in which at most a summary is queued. -/
theorem enterJoining (h : Keeps s t) (loaded : t.load.reading = none ∨ t.bus.station ≠ .starting)
    (silent : SendersAgree s → t.bus.station.sendsReplies = false) : Keeps s (enterJoining t) := by
  refine h.withBus _ (fun reading starting => ?_) (fun fit => { fit with
    dropRun := Nat.zero_le _, sending := fun _ => Nat.zero_le _ }) (fun counted => { counted with }) fun agree sends => ?_
  · rcases loaded with ended | other
    · simp [ended] at reading
    · exact absurd starting other
  have quiet := silent agree
  have noReply : t.bus.replies = [] := by
    by_contra some
    exact absurd (sends.replies some) (by simp [quiet])
  have noOrdinary : t.bus.ordinary = [] := by
    by_contra some
    have active := sends.ordinary some
    cases station : t.bus.station with
    | active => simp [station, StationState.sendsReplies] at quiet
    | starting | unconfigured | busFault | duplicateId | joining => simp [station, StationState.sendsOrdinary] at active
  refine { sends with
    replies := fun _ => rfl
    ordinary := fun some => absurd noOrdinary some
    slot := fun _ => rfl
    inHand := fun l inHand => ?_ }
  obtain ⟨may, held⟩ := sends.inHand l inHand
  refine ⟨?_, held⟩
  cases l with
  | reply | summary => rfl
  | ordinary => simp [Bus.headOf, noOrdinary] at held

/-! ### The Peer View -/

theorem hearPeer (h : Keeps s t) (p : Station) : Keeps s (hearPeer p t) := by
  unfold Machine.hearPeer
  split
  · exact h.withPeers _
  · exact (h.withPeers _).withPeers _

theorem losePeer (h : Keeps s t) (p : Station) : Keeps s (losePeer t p) := by
  unfold Machine.losePeer
  split
  · exact (h.withPeers _).withPeers _
  · exact h

theorem clearPeers (h : Keeps s t) : Keeps s (clearPeers t) := h.foldl (fun u p => (refl u).losePeer p) _

theorem takeSummary (h : Keeps s t) (p : Station) (es : List Entry) : Keeps s (takeSummary p es t) := by
  unfold Machine.takeSummary
  split
  · exact h.withPeers _
  · exact h

theorem adjustEntry (h : Keeps s t) (p : Station) (g : Group) (f : Entry → Entry) : Keeps s (adjustEntry p g f t) := by
  unfold Machine.adjustEntry
  split
  · exact h.withPeers _
  · exact h

/-! ### The agents -/

theorem removeClaim (h : Keeps s t) (p : Position) (notClaiming : ∀ n, (t.agent p).state ≠ .claiming n) :
    Keeps s (removeClaim p t) := by
  refine (h.seated p (t.agent p).state notClaiming (.inr (.inl rfl))).trans (of_eq ?_)
  have same : alter t.agents p (fun a => { a with state := (t.agent p).state }) = t.agents := alter_id _ _ rfl
  simp only [Machine.removeClaim, State.modExch, same]

theorem bind (h : Keeps s t) (p : Position) {r : CallRef} (free : t.boundAgent r = none) (g : Group) :
    Keeps s (bind p r g t) :=
  h.enterUnclaimed p _ (by simp [boundState]) (.inr (.inr ⟨_, rfl, (find?_finRange_eq_none_iff _).1 free⟩))

theorem talk (h : Keeps s t) (p : Position) {since d : Nat} {b : Binding}
    (alerting : (t.agent p).state = .alerting since b d) : Keeps s (talk p b t) :=
  (h.enter p (.talking b) (.inr (by rw [alerting]; rfl)) (by simp [alerting])).alterAgent p _ (.inr rfl) .rfl
    fun fit => { fit with answered := count1_le _ }

/-- The moving average of handling times stays between 1 and 3600 (R55). -/
theorem ahtAfter_range {aht : Nat} (range : 1 ≤ aht ∧ aht ≤ 3600) (talk wrap overrun : Nat) :
    1 ≤ ahtAfter aht talk wrap overrun ∧ ahtAfter aht talk wrap overrun ≤ 3600 := by
  unfold ahtAfter
  omega

theorem setAht (h : Keeps s t) (g : Group) (n : Nat) (fit : 1 ≤ t.aht[g] ∧ t.aht[g] ≤ 3600 → 1 ≤ n ∧ n ≤ 3600) :
    Keeps s (t.setAht g n) := by
  refine h.withAht _ fun ranges i => ?_
  have read : (alter t.aht g fun _ => n)[i] = if g = i then n else t.aht[i] := alter_get ..
  rw [read]
  split
  · exact fit (ranges g)
  · exact ranges i

theorem completeWrap (h : Keeps s t) (p : Position) (w : WrapWork) : Keeps s (completeWrap p w t) :=
  (h.alterAgent p _ (.inr rfl) .rfl fun fit => { fit with talk := countBy_le _ _, wrap := countBy_le _ _ }).setAht _ _
    fun range => ahtAfter_range range _ _ _

/-- What a record was doing is wound up as it enters a state without a call and without a claim (R7, R12, R20). -/
theorem windUpEnter (h : Keeps s t) (p : Position) (st : AgentState) (unbound : st.binding = none)
    (notClaiming : ∀ n, st ≠ .claiming n) : Keeps s ((windUp p t).enter p st) := by
  have direct (u : State) (k : Keeps s u) (idle : ∀ n, (u.agent p).state ≠ .claiming n) : Keeps s (u.enter p st) :=
    k.enter p st (.inl unbound) ⟨fun ⟨n, yes⟩ => absurd yes (notClaiming n), fun ⟨n, yes⟩ => absurd yes (idle n)⟩
  have afterWrap (w : WrapWork) (idle : ∀ n, (t.agent p).state ≠ .claiming n) :
      Keeps s ((Machine.completeWrap p w t).enter p st) := by
    refine direct _ (h.completeWrap p w) fun n => ?_
    change ((t.alterAgent p _).agent p).state ≠ _
    rw [alterAgent_agent_self]
    exact idle n
  unfold windUp
  split
  · next w _ wrap => exact afterWrap w (by simp [wrap])
  · next w _ wrap => exact afterWrap w (by simp [wrap])
  · exact h.enterUnclaimed p st notClaiming (.inl unbound)
  all_goals
    next state => exact direct t h (by simp [state])

theorem alterAllAgents (h : Keeps s t) (f : Agent → Agent) (bound : ∀ a, (f a).state.binding = a.state.binding)
    (claiming : ∀ a, (∃ n, (f a).state = .claiming n) ↔ ∃ n, a.state = .claiming n)
    (fit : ∀ a, a.counts.Fit → (f a).counts.Fit) : Keeps s { t with agents := alterAll t.agents f } := by
  have read (p : Position) : (alterAll t.agents f)[p] = f (t.agent p) := alterAll_getElem ..
  refine h.withAgents _ (fun p => .inr ?_) (fun p => ?_) fun p => ?_ <;> rw [read]
  · exact bound _
  · exact claiming _
  · exact fit _

theorem credited (h : Keeps s t) : Keeps s { t with agents := alterAll t.agents Agent.credit } := by
  refine h.alterAllAgents _ (fun a => ?_) (fun a => ?_) fun a fit => ?_
  · cases state : a.state <;> simp [Agent.credit, state, AgentState.binding]
  · cases state : a.state <;> simp [Agent.credit, state]
  · cases state : a.state with
    | wrapOver w since =>
      simp only [Agent.credit, state]
      exact { fit with overrun := count1_le _ }
    | loggedOut | notReady | ready | claiming | alerting | talking | wrap =>
      simp only [Agent.credit, state]
      exact fit

theorem secondEvent (h : Keeps s t) : Keeps s (secondEvent t) := by
  unfold Machine.secondEvent
  dsimp only
  split
  · exact (h.credited.alterAllAgents Agent.roll (fun _ => rfl) (fun _ => .rfl) fun _ => id).withTime _ id le_rfl
  · exact h.credited.withTime _ id le_rfl

end Keeps
end Sys2Proof.Machine
end

section
/-! PROOFS that distribution, the exchanges, the port and every command keep the six invariants, and so that every step
does. -/

namespace Sys2Proof.Machine

theorem deferCall_callAt (s : State) (c d : Slot) (b : Bool) : (s.deferCall c b).callAt d = s.callAt d := by
  simp only [State.callAt, State.deferCall, State.alterSlot, alter_get]
  split
  · next same => rw [same]
  · rfl

/-- The call a reading names is not CONNECTED. -/
theorem not_connected_of_selectable {s : State} {c : Slot} {k : Call} (open_ : s.selectable c = some k) :
    ∀ j, s.callAt c = some j → j.state ≠ .connected := by
  obtain ⟨held, waiting, -⟩ := (selectable_eq_some_iff s c k).1 open_
  intro j heldJ
  cases held.symm.trans heldJ
  simp [waiting]

namespace Keeps
variable {s t : State}

/-! ### Offers, claims and bindings -/

theorem startOffer (h : Keeps s t) (c : Slot) (k : Call) (p : Station) (g : Group)
    (waits : ∀ j, t.callAt c = some j → j.state ≠ .connected) : Keeps s (startOffer c k p g t) := by
  unfold Machine.startOffer
  split
  · exact h
  · exact (((h.markCall c _ (by simp) waits).deferCall _ _).queueOrdinary _ _ (by trivial)).adjustEntry _ _ _

theorem startClaim (h : Keeps s t) (p : Position) (peer : Station) (g : Group) (score : Nat)
    (room : t.exch.claims.length < claimCapacity) : Keeps s (startClaim p peer g score t) := by
  unfold Machine.startClaim
  split
  · next me since _ ready =>
    let x : Claim := ⟨p, peer, g, t.now + t.conf.claimTimeout⟩
    have seat := h.claimed p since ready x rfl room
    have marked := seat.alterAgent p (fun a => { a with changed := true, deferred := false }) (.inr rfl) .rfl id
    have moved : Keeps s ((t.modExch fun e => { e with claims := e.claims ++ [x] }).alterAgent p fun a =>
        { a with state := .claiming since, changed := true, deferred := false }) := by
      refine marked.trans (of_eq ?_)
      simp only [State.alterAgent, alter_alter, State.modExch]
    exact (moved.unawait (.rona p)).queueOrdinary _ _ trivial
  · exact h

theorem deferCallAttempt (h : Keeps s t) (c : Slot) : Keeps s (deferCallAttempt c t) :=
  (h.deferCall c true).withDeferrals _ (count1_le _)

theorem deferAgentAttempt (h : Keeps s t) (p : Position) : Keeps s (deferAgentAttempt p t) :=
  (h.deferAgent p true).withDeferrals _ (count1_le _)

theorem bindLocal (h : Keeps s t) (c : Slot) (k : Call) (p : Position)
    (waits : ∀ j, t.callAt c = some j → j.state ≠ .connected) : Keeps s (bindLocal c k p t) := by
  unfold Machine.bindLocal
  split
  · exact h
  · next r _ =>
    split
    · next free =>
      have unbound : t.boundAgent r = none := by
        simpa [State.bindable] using (Bool.and_eq_true_iff.1 free).2
      have same : (Machine.bind p r k.group t).callAt c = t.callAt c := by
        simp only [State.callAt, Machine.bind, State.enter_frame]
        rfl
      exact ((((h.bind p unbound _).markCall c _ (by simp) (same ▸ waits)).deferCall c _).place _).place _
    · exact h

theorem attemptCall (h : Keeps s t) (c : Slot) : Keeps s (attemptCall c t) := by
  unfold Machine.attemptCall
  split
  · exact h
  · next k picked =>
    have waits : ∀ j, (t.deferCall c false).callAt c = some j → j.state ≠ .connected := by
      rw [deferCall_callAt]
      exact not_connected_of_selectable picked
    split
    · exact h.deferCallAttempt c
    · split
      · split
        · exact h.deferCallAttempt c
        · exact (h.deferCall c false).startOffer c k _ _ waits
      · exact (h.deferCall c false).bindLocal c k _ waits
      · exact h.deferCall c false

theorem claimPart (h : Keeps s t) (p : Position) : Keeps s (claimPart p t) := by
  unfold Machine.claimPart
  split
  · next allowed =>
    split
    · exact h.deferAgent p false
    · split
      · exact h.deferAgentAttempt p
      · exact (h.deferAgent p false).startClaim p _ _ _ allowed.2
  · exact h.deferAgent p false

end Keeps

/-- The call an agent-side attempt chooses is open to selection (R72). -/
theorem selectable_of_pickCall {s : State} {a : Agent} {c : Slot} {k : Call} (picked : pickCall s a = some (c, k)) :
    s.selectable c = some k := by
  unfold pickCall at picked
  refine List.foldlRecOn (motive := fun m => ∀ d j, m = some (d, j) → s.selectable d = some j) s.queuedSlots _
    (by simp) (fun m good e _ d j step => ?_) c k picked
  beta_reduce at step
  split at step
  · exact good d j step
  · next k open_ =>
    split at step
    · split at step
      · cases step
        exact open_
      · split at step
        · cases step
          exact open_
        · exact good d j step
    · exact good d j step

namespace Keeps
variable {s t : State}

theorem attemptAgent (h : Keeps s t) (full : Bool) (p : Position) : Keeps s (attemptAgent full p t) := by
  unfold Machine.attemptAgent
  split
  · split
    · exact h.deferAgentAttempt p
    · split
      · next c k picked =>
        refine (h.deferAgent p false).bindLocal c k p ?_
        exact not_connected_of_selectable (selectable_of_pickCall picked)
      · split
        · exact h.claimPart p
        · exact h.deferAgent p false
  · exact h

/-! ### Passes -/

theorem retryPass (h : Keeps s t) : Keeps s (retryPass t) := by
  refine (h.foldl (fun u c => ?_) _).foldl (fun u p => ?_) _
  · unfold serveCall
    split
    · exact (refl u).attemptCall c
    · exact refl u
  · unfold serveAgent
    split
    · exact (refl u).attemptAgent true p
    · exact refl u

theorem retryIfRoom (h : Keeps s t) : Keeps s (retryIfRoom t) := by
  unfold Machine.retryIfRoom
  split
  · exact h.retryPass
  · exact h

theorem activePass (h : Keeps s t) : Keeps s (activePass t) := by
  refine (h.foldl (fun u c => ?_) _).foldl (fun u p => (refl u).attemptAgent true p) _
  unfold activeCall
  split
  · split
    · exact refl u
    · exact (refl u).attemptCall c
  · exact refl u

theorem raisedPass (h : Keeps s t) (p : Station) (before : List Nat) : Keeps s (raisedPass p before t) := by
  unfold Machine.raisedPass
  dsimp only
  split
  · refine h.foldl (fun u c => ?_) _
    unfold raisedCall
    split
    · split
      · exact (refl u).attemptCall c
      · exact refl u
    · exact refl u
  · exact h

/-! ### Marks, alerts and waiters -/

theorem clearMark (h : Keeps s t) (c : Slot) (named : Option Station) (rona : Bool) (placing : State → State)
    (placed : ∀ u, Keeps s u → Keeps s (placing u)) (waits : ∀ k, t.callAt c = some k → k.state ≠ .connected) :
    Keeps s (clearMark c named rona placing t) := by
  unfold Machine.clearMark
  split
  · exact h
  · next k held =>
    let note : Call → Call := fun k => { k with declined := match named with
          | some p => if t.bus.id = some p then k.declined else withStation k.declined p
          | none => k.declined }
    have noted : Keeps s (t.alterCall c note) := h.alterCall c note fun _ _ => rfl
    have cleared : Keeps s ((t.alterCall c note).markCall c .waiting) := by
      refine noted.markCall c .waiting (by simp) fun j heldJ => ?_
      rw [State.alterCall_callAt, if_pos rfl, held] at heldJ
      cases heldJ
      exact waits k held
    have ready : Keeps s (placing (if rona then Machine.countRonaReturn k.group ((t.alterCall c note).markCall c .waiting)
        else (t.alterCall c note).markCall c .waiting)) := by
      refine placed _ ?_
      split
      · exact cleared.countRonaReturn _
      · exact cleared
    by_cases pending : k.divertPending = true
    · simp only [pending, if_true]
      exact ready.divertDue c
    · simp only [pending]
      exact ready.attemptCall c

theorem releaseAlert (h : Keeps s t) (p : Position) (b : Binding) (reason : Nat)
    (notClaiming : ∀ n, (t.agent p).state ≠ .claiming n) : Keeps s (releaseAlert p b reason t) := by
  unfold Machine.releaseAlert
  have told := ((h.enter p (.notReady reason) (.inl rfl) (by simp [notClaiming])).alterAgent p
    (fun a => { a with counts := { a.counts with rona := count1 a.counts.rona } }) (.inr rfl) .rfl
      fun fit => { fit with rona := count1_le _ }).place (.withdraw p)
  dsimp only
  split
  · split
    · next k alerted =>
      obtain ⟨named, alerting⟩ := Option.filter_eq_some_iff.1 alerted
      refine told.clearMark _ _ _ _ (fun u keeps => keeps.place _) fun j heldJ => ?_
      cases (callAt_of_named named).symm.trans heldJ
      simp [of_decide_eq_true alerting]
    · exact told
  · exact told.reply _ _ trivial

theorem takeRona (h : Keeps s t) (p : Position) : Keeps s (takeRona p t) := by
  unfold Machine.takeRona
  split
  · next alerting => exact h.releaseAlert p _ _ (by simp [alerting])
  all_goals exact h

theorem unbind (h : Keeps s t) (p : Position) : Keeps s (unbind p t) := by
  unfold Machine.unbind
  split
  · next alerting =>
    refine attemptAgent ((h.place _).enter p _ (.inl rfl) ?_) false p
    simp [State.agent] at alerting ⊢
    simp [alerting]
  all_goals exact h

theorem endClaim (h : Keeps s t) (p : Position) : Keeps s (endClaim p t) := by
  unfold Machine.endClaim
  split
  · exact h.enterUnclaimed p _ (by simp) (.inl rfl)
  all_goals
    next state => exact h.removeClaim p (by simp [state])

theorem takeWatch (h : Keeps s t) (c : Slot) : Keeps s (takeWatch c t) := by
  unfold Machine.takeWatch
  split
  · next k _ held _ =>
    split
    · next remote =>
      refine h.clearMark c _ _ _ (fun u keeps => (keeps.place _).reply _ _ trivial) fun j heldJ => ?_
      cases held.symm.trans heldJ
      simp [remote]
    all_goals exact h
  · exact h

theorem serveWaiters (h : Keeps s t) (n : Nat) : Keeps s (serveWaiters n t) := by
  induction n generalizing t with
  | zero => exact h
  | succ n ih =>
    unfold Machine.serveWaiters
    split
    · exact h
    · next w _ _ =>
      split
      · refine ih ?_
        cases w with
        | rona p => exact (h.unawait _).takeRona p
        | watch c => exact (h.unawait _).takeWatch c
        | divert c => exact (h.unawait _).takeDivert c
      · exact h

theorem serveRoom (h : Keeps s t) : Keeps s (serveRoom t) := h.serveWaiters _

theorem removeHead (h : Keeps s t) : Keeps s (removeHead t) :=
  (serveRoom (h.withPort { t.port with directives := t.port.directives.tail } fun room => by
    simp only [List.length_tail]
    omega)).retryIfRoom.resumeAll

end Keeps
end Sys2Proof.Machine
end

section
/-! PROOFS that the frames of the bus, sent and received, keep the six invariants. -/

namespace Sys2Proof.Machine

/-! ### The transmitter -/

/-- A frame that leaves its queue leaves nothing in hand and nothing on the line (R126, R127). -/
theorem Bus.Sends.left {b : Bus} (sends : b.Sends) {lane : Lane} (inHand : b.inHand = some lane) :
    (b.leave lane).release.Sends := by
  obtain ⟨may, -⟩ := sends.inHand lane inHand
  have idle : ∀ l, (none : Option Lane) = some l → laneAllowed b.station l = true ∧ (b.headOf l).isSome = true := by simp
  cases lane with
  | reply => exact {
      replies := fun some => sends.replies fun empty => some (by simp [Bus.leave, Bus.release, empty])
      ordinary := sends.ordinary
      slot := sends.slot
      replyKinds := fun f mem => sends.replyKinds f (List.mem_of_mem_tail mem)
      ordinaryKinds := sends.ordinaryKinds
      inHand := by simp [Bus.release]
      line := by simp [Bus.release] }
  | ordinary => exact {
      replies := sends.replies
      ordinary := fun some => sends.ordinary fun empty => some (by simp [Bus.leave, Bus.release, empty])
      slot := sends.slot
      replyKinds := sends.replyKinds
      ordinaryKinds := fun f mem => sends.ordinaryKinds f (List.mem_of_mem_tail mem)
      inHand := by simp [Bus.release]
      line := by simp [Bus.release] }
  | summary => exact {
      replies := sends.replies
      ordinary := sends.ordinary
      slot := fun _ => may
      replyKinds := sends.replyKinds
      ordinaryKinds := sends.ordinaryKinds
      inHand := by simp [Bus.release]
      line := by simp [Bus.release] }

theorem Bus.release_leave_station (lane : Lane) (b : Bus) : (b.leave lane).release.station = b.station := by
  cases lane <;> rfl

theorem Bus.length_replies_leave_le (lane : Lane) (b : Bus) : (b.leave lane).replies.length ≤ b.replies.length := by
  cases lane <;> simp [Bus.leave]

theorem Bus.length_ordinary_leave_le (lane : Lane) (b : Bus) : (b.leave lane).ordinary.length ≤ b.ordinary.length := by
  cases lane <;> simp [Bus.leave]

theorem Bus.Counted.leave {b : Bus} (counted : b.Counted) (lane : Lane) : (b.leave lane).Counted := by
  cases lane <;> exact { counted with }

theorem Bus.Fit.sent {b : Bus} (fit : b.Fit) (lane : Lane) : (Bus.sent lane b).Fit where
  replies := (Bus.length_replies_leave_le lane b).trans fit.replies
  ordinary := (Bus.length_ordinary_leave_le lane b).trans fit.ordinary
  attempts := Nat.zero_le _
  dropRun := Nat.zero_le _
  sending := fun _ => Nat.zero_le _

/-- The attempt puts the head of the queue in hand on the line, under this station's ID (R119, R122). -/
theorem Bus.Sends.attempt {b : Bus} (sends : b.Sends) (slots : Nat) : (Bus.attempt slots b).Sends := by
  unfold Bus.attempt
  split
  · next l inHand idle =>
    split
    · refine { sends with line := fun f line => ?_ }
      obtain ⟨source, first⟩ := (Bus.toSend_eq_some b l f).1 line
      refine ⟨source, l, inHand, ?_, first⟩
      cases l with
      | reply => exact sends.replyKinds _ (List.mem_of_head? first)
      | ordinary => exact sends.ordinaryKinds _ (List.mem_of_head? first)
      | summary =>
        obtain ⟨es, -, same⟩ := Option.map_eq_some_iff.1 first
        have body : f.body = .summary es := (congrArg OutFrame.body same).symm
        rw [body]
        trivial
    · exact { sends with }
  · exact sends

theorem Bus.Fit.attempt {b : Bus} (fit : b.Fit) (slots : Nat) : (Bus.attempt slots b).Fit := by
  unfold Bus.attempt
  split
  · split <;> exact { fit with }
  · exact fit

theorem Bus.Counted.attempt {b : Bus} (counted : b.Counted) (slots : Nat) : (Bus.attempt slots b).Counted := by
  unfold Bus.attempt
  split
  · split <;> exact { counted with }
  · exact counted

theorem Bus.attempt_station (slots : Nat) (b : Bus) : (Bus.attempt slots b).station = b.station := by
  unfold Bus.attempt
  split
  · split <;> rfl
  · rfl

/-- A stopped attempt is off the line; the frame stays in hand, with the new content of its summary (R120, R126). -/
theorem Bus.Sends.collided {b : Bus} (sends : b.Sends) {lane : Lane} (inHand : b.inHand = some lane) :
    ((if lane = .summary then b.collide.renew else b.collide).backOff).Sends := by
  have stopped : b.collide.Sends := { sends with line := by simp [Bus.collide] }
  split
  · next summary =>
    subst summary
    obtain ⟨may, held⟩ := sends.inHand .summary inHand
    have slot : b.slot.isSome = true := by simpa [Bus.headOf] using held
    refine { stopped with slot := fun _ => may, inHand := fun l which => ⟨(sends.inHand l which).1, ?_⟩, line := ?_ }
    · cases inHand.symm.trans which
      simp [Bus.headOf, Bus.backOff, Bus.renew, Bus.collide, slot]
    · simp [Bus.backOff, Bus.renew, Bus.collide]
  · exact { stopped with }

theorem enterIsolated_busFault (s : State) : enterIsolated .busFault s =
    clearPeers (((s.modBus (Bus.isolate (.busFault (s.now + s.conf.slow)))).modPort fun p =>
      { p with isolated := some .busFault }).modBuilder fun b => { b with period := none, hold := none }) := rfl

namespace Keeps
variable {s t : State}

theorem afterLeaving (h : Keeps s t) (lane : Lane) : Keeps s (afterLeaving lane t) := by
  unfold Machine.afterLeaving
  split
  · exact h.retryIfRoom
  · exact h

theorem frameSent (h : Keeps s t) {lane : Lane} (inHand : t.bus.inHand = some lane) (f : Frame) :
    Keeps s (frameSent lane f t) := by
  have sent : Keeps s (t.modBus (Bus.sent lane)) :=
    h.modBus _ (Bus.release_leave_station lane t.bus) (fun fit => fit.sent lane)
      (fun counted => { counted.leave lane with framesSent := count1_le _ }) fun sends => { sends.left inHand with }
  have rejoined : Keeps s (rejoin (Machine.noteSent f.body (t.modBus (Bus.sent lane)))) := by
    have noted := sent.noteSent f.body
    unfold rejoin
    split
    · next fault =>
      exact (noted.enterJoining (.inr (by rw [fault]; simp)) fun _ => by rw [fault]; rfl).startBrisk
    all_goals exact noted
  exact rejoined.choose.afterLeaving lane

/-- Isolation empties the queues, whatever the bus part before it has done to them (R131, R132). -/
theorem isolated (h : Keeps s t) (cause : IsolationCause) (f : Bus → Bus) (service : t.bus.station ≠ .starting)
    (run : t.bus.Fit → (f t.bus).dropRun ≤ 3) (counted : t.bus.Counted → (f t.bus).Counted) :
    Keeps s (enterIsolated cause (t.modBus f)) := by
  have emptied (st : StationState) (silent : st.sendsReplies = false) :
      Keeps s ((t.modBus f).modBus (Bus.isolate st)) := by
    refine h.withBus _ (fun _ starting => absurd starting service) (fun fit => ?_) (fun counters => ?_) fun _ _ => ?_
    · exact ⟨Nat.zero_le _, Nat.zero_le _, Nat.zero_le _, run fit, fun sends => absurd (silent.symm.trans sends) (by simp)⟩
    · exact { counted counters with dropped := countBy_le _ _ }
    · exact ⟨by simp [Bus.isolate], by simp [Bus.isolate], by simp [Bus.isolate], by simp [Bus.isolate],
        by simp [Bus.isolate], by simp [Bus.isolate], by simp [Bus.isolate]⟩
  have told (st : StationState) (silent : st.sendsReplies = false) :
      Keeps s ((((t.modBus f).modBus (Bus.isolate st)).modPort fun p => { p with isolated := some cause }).modBuilder
        fun b => { b with period := none, hold := none }) := ((emptied st silent).modPort _ id).modBuilder _
  cases cause with
  | busFault =>
    rw [enterIsolated_busFault]
    exact (told _ rfl).clearPeers
  | duplicateId => exact told .duplicateId rfl

theorem isolate (h : Keeps s t) (cause : IsolationCause) (service : t.bus.station ≠ .starting) :
    Keeps s (isolate cause t) := by
  have entered : Keeps s (enterIsolated cause t) := h.isolated cause id service Bus.Fit.dropRun id
  unfold Machine.isolate
  split
  · exact entered
  · exact entered.retryIfRoom

theorem collide (h : Keeps s t) {lane : Lane} (inHand : t.bus.inHand = some lane) : Keeps s (collide lane t) := by
  have counters (b : Bus) (counted : b.Counted) : b.collide.Counted := { counted with collisions := count1_le _ }
  unfold Machine.collide
  dsimp only
  split
  · have dropped (b : Bus) (counted : b.Counted) : (Bus.drop lane b.collide).Counted :=
      { (counters b counted).leave lane with dropped := count1_le _ }
    have run (b : Bus) : (Bus.drop lane b.collide).dropRun = if b.station.sendsReplies then b.dropRun + 1 else b.dropRun := by
      cases lane <;> rfl
    unfold dropFrame
    dsimp only
    split
    · next isolating =>
      have service : t.bus.station ≠ .starting := fun starting => by
        simp [Bus.collide, starting, StationState.sendsReplies] at isolating
      have entered : Keeps s (enterIsolated .busFault (t.modBus fun b => Bus.drop lane b.collide)) := by
        refine h.isolated .busFault _ service (fun fit => ?_) (dropped _)
        rw [run]
        split
        · next sends => exact Nat.succ_le_succ (fit.sending sends)
        · exact fit.dropRun
      split
      · exact entered
      · exact entered.retryIfRoom
    · next goes =>
      refine afterLeaving (choose (h.modBus (fun b => Bus.drop lane b.collide) ?_ (fun fit => ?_) (dropped _) fun sends => ?_)) lane
      · cases lane <;> rfl
      · refine ⟨(Bus.length_replies_leave_le lane _).trans fit.replies,
          (Bus.length_ordinary_leave_le lane _).trans fit.ordinary, Nat.zero_le _, ?_, fun sends => ?_⟩
        · rw [run]
          split
          · next sends => exact Nat.succ_le_succ (fit.sending sends)
          · exact fit.dropRun
        · have below : (Bus.drop lane t.bus.collide).dropRun ≤ 2 := by
            have sending : t.bus.station.sendsReplies = true := by
              rw [← sends]
              cases lane <;> rfl
            exact Nat.le_of_lt_succ (Nat.lt_of_not_le fun three => goes ⟨sending, three⟩)
          exact below
      · have stopped : t.bus.collide.Sends := { sends with line := by simp [Bus.collide] }
        exact { stopped.left (lane := lane) inHand with }
  · next few =>
    refine h.modBus (fun b => (if lane = .summary then b.collide.renew else b.collide).backOff) ?_ (fun fit => ?_)
      (fun counted => ?_) fun sends => sends.collided inHand
    · split <;> rfl
    · have attempts : t.bus.attempts + 1 ≤ 15 := by
        simp only [State.modBus_bus, Bus.collide, lastAttempt] at few
        omega
      split <;> exact { fit with attempts := attempts }
    · split <;> exact { counters _ counted with }

/-! ### Received frames -/

theorem takeAccept (h : Keeps s t) (p : Station) (r : CallRef) (pos : Position) : Keeps s (takeAccept p r pos t) := by
  have stale : Keeps s (t.countStale.reply p (.cancel r)) := h.countStale.reply _ _ trivial
  unfold Machine.takeAccept
  split
  · exact stale
  · next k named =>
    split
    · next offered =>
      split
      · exact stale
      · split
        · exact h.reply _ _ trivial
        · refine ((h.markCall _ _ (by simp) fun j heldJ => ?_).deferCall _ _).place _
          cases (callAt_of_named named).symm.trans heldJ
          simp [offered]
    · split
      · exact h.countStale
      · exact stale
    all_goals exact stale

theorem takeDecline (h : Keeps s t) (p : Station) (r : CallRef) (why : DeclineReason) : Keeps s (takeDecline p r why t) := by
  unfold Machine.takeDecline
  split
  · exact h.countStale
  · next k named =>
    split
    · next q d g offered =>
      split
      · exact h.countStale
      · have waits : ∀ j, t.callAt r.slot = some j → j.state ≠ .connected := fun j heldJ => by
          cases (callAt_of_named named).symm.trans heldJ
          simp [offered]
        have same : (adjustDecline p g t).callAt r.slot = t.callAt r.slot := by
          simp [State.callAt, adjustDecline]
        have adjusted : Keeps s (adjustDecline p g t) := h.adjustEntry _ _ _
        cases why with
        | noAgent | notServed => exact adjusted.clearMark _ _ _ _ (fun _ keeps => keeps) (same ▸ waits)
        | noRoom => exact h.clearMark _ _ _ _ (fun _ keeps => keeps) waits
    all_goals exact h.countStale

theorem takeAnswered (h : Keeps s t) (p : Station) (r : CallRef) (pos : Position) : Keeps s (takeAnswered p r pos t) := by
  unfold Machine.takeAnswered
  split
  · exact h.countStale
  · split
    · split
      · exact h.connect _
      · exact h.countStale
    · exact h
    all_goals exact h.countStale

theorem takeReturned (h : Keeps s t) (p : Station) (r : CallRef) (pos : Position) : Keeps s (takeReturned p r pos t) := by
  unfold Machine.takeReturned
  split
  · exact h.countStale
  · next k named =>
    split
    · next remote =>
      split
      · refine h.clearMark _ _ _ _ (fun _ keeps => keeps.place _) fun j heldJ => ?_
        cases (callAt_of_named named).symm.trans heldJ
        simp [remote]
      · exact h.countStale
    all_goals exact h.countStale

end Keeps

/-- The call a CLAIM draws is open to selection (R161). -/
theorem selectable_of_pickForClaim {s : State} {p : Station} {g : Group} {c : Slot} {k : Call}
    (picked : pickForClaim s p g = some (c, k)) : s.selectable c = some k := by
  unfold pickForClaim at picked
  refine List.foldlRecOn (motive := fun m => ∀ d j, m = some (d, j) → s.selectable d = some j) s.queuedSlots _
    (by simp) (fun m good e _ d j step => ?_) c k picked
  beta_reduce at step
  split at step
  · exact good d j step
  · next k open_ =>
    split at step
    · split at step
      · cases step
        exact open_
      · split at step
        · cases step
          exact open_
        · exact good d j step
    · exact good d j step

namespace Keeps
variable {s t : State}

theorem takeClaim (h : Keeps s t) (p : Station) (g : Group) (pos : Position) (score : Nat) :
    Keeps s (takeClaim p g pos score t) := by
  unfold Machine.takeClaim
  split
  · split
    · exact h.reply _ _ trivial
    · next picked =>
      split
      · exact h
      · exact h.startOffer _ _ _ _ (not_connected_of_selectable (selectable_of_pickForClaim picked))
  · exact h.reply _ _ trivial

theorem answerRepeat (h : Keeps s t) (p : Station) (r : CallRef) (pos : Position) : Keeps s (answerRepeat p r pos t) := by
  unfold Machine.answerRepeat
  split
  · split
    · exact (h.reply _ _ (by trivial)).reply _ _ trivial
    · exact h.reply _ _ trivial
  all_goals exact h.reply _ _ trivial

theorem takeOffer (h : Keeps s t) (p : Station) (r : CallRef) (g : Group) (priority : Nat) (tier : Fin 3) (tag : Half) :
    Keeps s (takeOffer p r g priority tier tag t) := by
  unfold Machine.takeOffer
  split
  · exact h.answerRepeat _ _ _
  · next unbound =>
    split
    · exact h.reply _ _ trivial
    · split
      · exact h.reply _ _ trivial
      · split
        · exact h.reply _ _ trivial
        · exact ((h.bind _ unbound _).place _).reply _ _ trivial

theorem takeCancel (h : Keeps s t) (r : CallRef) : Keeps s (takeCancel r t) := by
  unfold Machine.takeCancel
  split
  · exact h
  · split
    · exact h.unbind _
    · exact h.countStale

theorem takeNocall (h : Keeps s t) (p : Station) (g : Group) (pos : Position) : Keeps s (takeNocall p g pos t) := by
  unfold Machine.takeNocall
  split
  · exact h.countStale
  · split
    · exact ((h.endClaim _).adjustEntry _ _ _).attemptAgent _ _
    · exact h.countStale

theorem handle (h : Keeps s t) (p : Station) (body : Body) : Keeps s (handle p body t) := by
  unfold Machine.handle
  split
  · cases body with
    | summary es => exact (h.takeSummary p es).raisedPass p _
    | offer r g pr tier tag age => exact h.takeOffer _ _ _ _ _ _
    | claim g st pos score => exact h.takeClaim _ _ _ _
    | accept r pos score => exact h.takeAccept _ _ _
    | decline r why => exact h.takeDecline _ _ _
    | cancel r => exact h.takeCancel _
    | answered r pos => exact h.takeAnswered _ _ _
    | returned r pos => exact h.takeReturned _ _ _
    | nocall g pos => exact h.takeNocall _ _ _
  · exact h.countStale

theorem takeFrame (h : Keeps s t) (f : Frame) (service : t.outOfService = false) : Keeps s (takeFrame f t) := by
  have counted : Keeps s (t.modBus fun b => { b with framesReceived := count1 b.framesReceived, sentFirstByte := false }) :=
    h.modBus _ rfl (fun fit => { fit with }) (fun counted => { counted with framesReceived := count1_le _ })
      fun sends => { sends with }
  have started : t.bus.station ≠ .starting := fun starting => by simp [State.outOfService, starting] at service
  unfold Machine.takeFrame
  dsimp only
  split
  · unfold duplicateTest
    split
    · exact counted
    · exact counted.isolate _ started
  · split
    · split
      · exact (counted.hearPeer _).handle _ _
      · exact counted.hearPeer _
    · exact counted.hearPeer _

theorem receive (h : Keeps s t) (f : Option Frame) : Keeps s (receive f t) := by
  unfold Machine.receive
  split
  · exact h
  · next service =>
    split
    · exact h.takeFrame _ (by simpa using service)
    · exact h.modBus _ rfl (fun fit => { fit with }) (fun counted => { counted with checkErrors := count1_le _ })
        fun sends => { sends with }

end Keeps
end Sys2Proof.Machine
end

section
/-! PROOFS that the Shelf Port's transactions, the load and the resets keep the six invariants, then every command, and so
every step. -/

namespace Sys2Proof.Machine

/-! ### The resets -/

/-- Everything is empty after a reset, whatever the sync input shows (R181). -/
theorem bounded_resetWith (sync : Bool) : Bounded (State.resetWith sync) := by
  refine (bounded_iff _).2 ⟨Nat.zero_le _, ⟨?_, ?_, ?_, ?_, ?_⟩, Nat.zero_le _, ?_, fun g => ?_⟩ <;> simp [State.resetWith]

theorem countersBounded_resetWith (sync : Bool) : CountersBounded (State.resetWith sync) := by
  have agents (p : Position) : (State.resetWith sync).agent p = Agent.reset := by simp [State.agent, State.resetWith]
  have groups (g : Group) : (State.resetWith sync).counts[g] = ⟨0, 0, 0, 0, 0, 0, 0⟩ := by simp [State.resetWith]
  have streams (n : StreamId) : (State.resetWith sync).clips.streams[n] = ⟨none, [], false, 0, 0⟩ := by
    simp [State.resetWith]
  refine (countersBounded_iff _).2 ⟨fun p => ?_, fun g => ?_, fun n => ?_, Nat.zero_le _, ⟨Nat.zero_le _, Nat.zero_le _⟩,
    Nat.zero_le _, Nat.zero_le _, ⟨Nat.zero_le _, Nat.zero_le _, Nat.zero_le _, Nat.zero_le _, Nat.zero_le _, Nat.zero_le _⟩⟩
  · rw [agents]
    exact ⟨Nat.zero_le _, Nat.zero_le _, Nat.zero_le _, Nat.zero_le _, Nat.zero_le _⟩
  · rw [groups]
    exact ⟨Nat.zero_le _, Nat.zero_le _, Nat.zero_le _, Nat.zero_le _, Nat.zero_le _, Nat.zero_le _, Nat.zero_le _⟩
  · rw [streams]
    exact Nat.zero_le _

theorem fifosFit_resetWith (sync : Bool) : FifosFit (State.resetWith sync) :=
  (fifosFit_iff _).2 ⟨fun n => by simp [State.resetWith], by simp [State.resetWith], by simp [State.resetWith]⟩

theorem bindingsAgree_resetWith (sync : Bool) : BindingsAgree (State.resetWith sync) := by
  have agents (p : Position) : (State.resetWith sync).agent p = Agent.reset := by simp [State.agent, State.resetWith]
  refine ⟨fun p q r bound => ?_, fun p => ?_, List.nodup_nil⟩
  · simp [agents, Agent.boundTo, Agent.reset, AgentState.binding] at bound
  · rw [agents]
    simp [Agent.reset, State.resetWith]

theorem queuesAgree_resetWith (sync : Bool) : QueuesAgree (State.resetWith sync) := by
  have calls (c : Slot) : (State.resetWith sync).callAt c = none := by simp [State.callAt, State.resetWith]
  have queues (g : Group) : (State.resetWith sync).queue g = [] := by simp [State.queue, State.resetWith]
  exact ⟨by simp [queues], by simp [queues, calls], by simp [queues], by simp [calls], fun _ => ⟨rfl, calls⟩⟩

theorem sendersAgree_resetWith (sync : Bool) : SendersAgree (State.resetWith sync) :=
  (sendersAgree_iff _).2 ⟨fun _ => rfl, ⟨by simp [State.resetWith], by simp [State.resetWith], by simp [State.resetWith],
    by simp [State.resetWith], by simp [State.resetWith], by simp [State.resetWith], by simp [State.resetWith]⟩⟩

namespace Keeps
variable {s t : State}

theorem resetWith (s : State) (sync : Bool) : Keeps s (State.resetWith sync) :=
  ⟨fun _ => bounded_resetWith sync, fun _ => countersBounded_resetWith sync, fun _ => fifosFit_resetWith sync,
    fun _ => bindingsAgree_resetWith sync, fun _ => queuesAgree_resetWith sync, fun _ => sendersAgree_resetWith sync⟩

theorem withPending (h : Keeps s t) (pending : List Instr) : Keeps s { t with pending } :=
  h.outside t.cfg t.highway t.peers t.builder t.port pending id

theorem resetBlock (s t : State) (sync : Bool) : Keeps s (resetBlock sync t) := (resetWith s sync).withPending t.pending

/-! ### The Shelf Port -/

theorem selectRises (h : Keeps s t) : Keeps s (selectRises t) := by
  unfold Machine.selectRises
  split
  · exact (resetBlock s t _).drive _
  all_goals exact h.inTransaction _

theorem opened (h : Keeps s t) (x : State → Transaction) : Keeps s (opened x t) := (h.selectRises.drive _).inTransaction _

theorem clearAgentField (h : Keeps s t) (p : Position) (field : Nat) : Keeps s (clearAgentField p field t) := by
  have on (f : AgentCounts → AgentCounts) (fit : ∀ n, n.Fit → (f n).Fit) :
      Keeps s (t.alterAgent p fun a => { a with counts := f a.counts }) := h.alterAgent p _ (.inr rfl) .rfl (fit _)
  unfold Machine.clearAgentField
  dsimp only
  split
  · exact on (fun n => { n with answered := 0 }) fun _ fit => { fit with answered := Nat.zero_le _ }
  · exact on (fun n => { n with talk := 0 }) fun _ fit => { fit with talk := Nat.zero_le _ }
  · exact on (fun n => { n with wrap := 0 }) fun _ fit => { fit with wrap := Nat.zero_le _ }
  · exact on (fun n => { n with overrun := 0 }) fun _ fit => { fit with overrun := Nat.zero_le _ }
  · exact on (fun n => { n with rona := 0 }) fun _ fit => { fit with rona := Nat.zero_le _ }
  · exact h

theorem clearGroupField (h : Keeps s t) (g : Group) (field : Nat) : Keeps s (clearGroupField g field t) := by
  unfold Machine.clearGroupField
  split
  · exact h.groupCounts g _ fun fit => { fit with offeredIn := Nat.zero_le _ }
  · exact h.groupCounts g _ fun fit => { fit with answeredLocal := Nat.zero_le _ }
  · exact h.groupCounts g _ fun fit => { fit with answeredByPeers := Nat.zero_le _ }
  · exact h.groupCounts g _ fun fit => { fit with takenFromPeers := Nat.zero_le _ }
  · exact h.groupCounts g _ fun fit => { fit with abandoned := Nat.zero_le _ }
  · exact h.groupCounts g _ fun fit => { fit with diverted := Nat.zero_le _ }
  · exact h.groupCounts g _ fun fit => { fit with ronaReturns := Nat.zero_le _ }
  · exact h

theorem clearStationField (h : Keeps s t) (field : Nat) : Keeps s (clearStationField field t) := by
  have onBus (f : Bus → Bus) (station : (f t.bus).station = t.bus.station) (fit : t.bus.Fit → (f t.bus).Fit)
      (counted : t.bus.Counted → (f t.bus).Counted) (sends : t.bus.Sends → (f t.bus).Sends) : Keeps s (t.modBus f) :=
    h.modBus f station fit counted sends
  unfold Machine.clearStationField
  split
  · exact onBus _ rfl (fun x => by exact { x with }) (fun x => by exact { x with framesSent := Nat.zero_le _ }) fun x => by exact { x with }
  · exact onBus _ rfl (fun x => by exact { x with }) (fun x => by exact { x with framesReceived := Nat.zero_le _ }) fun x => by exact { x with }
  · exact onBus _ rfl (fun x => by exact { x with }) (fun x => by exact { x with checkErrors := Nat.zero_le _ }) fun x => by exact { x with }
  · exact onBus _ rfl (fun x => by exact { x with }) (fun x => by exact { x with collisions := Nat.zero_le _ }) fun x => by exact { x with }
  · exact onBus _ rfl (fun x => by exact { x with }) (fun x => by exact { x with dropped := Nat.zero_le _ }) fun x => by exact { x with }
  · exact h.withStale 0 (Nat.zero_le _)
  · exact onBus _ rfl (fun x => by exact { x with }) (fun x => by exact { x with repliesLost := Nat.zero_le _ }) fun x => by exact { x with }
  · exact h.withTreat _ fun x => { x with shortages := Nat.zero_le _ }
  · exact h.withTreat _ fun x => { x with stalls := Nat.zero_le _ }
  · let clear : Stream → Stream := fun x => { x with underruns := 0 }
    have read (n : StreamId) : (alterAll t.clips.streams clear)[n] = clear t.clips.streams[n] := alterAll_getElem ..
    have underruns (n : StreamId) : (alterAll t.clips.streams clear)[n].underruns = 0 := by rw [read]
    have fifo (n : StreamId) : (alterAll t.clips.streams clear)[n].fifo = t.clips.streams[n].fifo := by rw [read]
    have epoch (n : StreamId) : (alterAll t.clips.streams clear)[n].epoch = t.clips.streams[n].epoch := by rw [read]
    refine h.withClips { t.clips with streams := alterAll t.clips.streams clear } (fun _ n => ?_) fun fit =>
      ⟨fun n => ?_, fun r flight => ?_, fun r flight same => ?_⟩
    · exact (underruns n).trans_le (Nat.zero_le _)
    · rw [fifo]
      exact fit.level n
    · rw [epoch]
      exact fit.epoch r flight
    · rw [fifo]
      exact fit.room r flight (same.trans (epoch _))
  · exact h.withDeferrals 0 (Nat.zero_le _)
  · exact h.withClamped 0 (Nat.zero_le _)
  · exact h

theorem clearField (h : Keeps s t) (about : ReportOf) (n : Nat) : Keeps s (clearField about n t) := by
  cases about with
  | agent p => exact h.clearAgentField p n
  | group g => exact h.clearGroupField g n
  | station => exact h.clearStationField n
  | unknown => exact h

theorem clearCause (h : Keeps s t) (cause : Option Cause) (detail : Nat) : Keeps s (clearCause cause detail t) := by
  unfold Machine.clearCause
  split
  · split
    · exact h.withTime _ id le_rfl
    · exact h
  · exact h.modPort _ id
  · exact h.withPeers _
  all_goals exact h

theorem firstBit (h : Keeps s t) : Keeps s (firstBit t) := by
  unfold Machine.firstBit
  split
  · exact h.inTransaction _
  · exact h.inTransaction _
  all_goals exact h

theorem lastBit (h : Keeps s t) : Keeps s (lastBit t) := by
  unfold Machine.lastBit
  have begun := h.firstBit
  generalize Machine.firstBit t = u at begun ⊢
  dsimp only
  split
  · split
    · exact ((begun.emit _).inTransaction _).removeHead
    · exact (begun.emit _).inTransaction _
  · exact ((begun.emit _).inTransaction _).clearField _ _
  · exact ((begun.emit _).inTransaction _).clearCause _ _
  · exact (begun.emit _).inTransaction _
  · split
    · exact ((begun.emit _).inTransaction _).alterAgent _ _ (.inr rfl) .rfl id
    · exact begun.emit _
  · exact begun.emit _
  · exact begun.emit _
  all_goals exact begun

theorem clockItems (h : Keeps s t) (n : Nat) : Keeps s (clockItems n t) := by
  induction n generalizing t with
  | zero => exact h
  | succ n ih => exact ih h.lastBit

theorem clocked (h : Keeps s t) (x : State → Transaction) (same : Transaction → Bool) (c : Clocking) :
    Keeps s (clocked x same c t) := by
  unfold Machine.clocked
  split
  · exact ((h.opened x).clockItems _).selectRises
  · exact h.opened x
  · split
    · exact h.firstBit
    · exact h
  · split
    · exact h.lastBit
    · exact h

theorem shelfEvent (h : Keeps s t) (n : Nat) {act : State → State} (acts : ∀ u, Keeps u (act u)) :
    Keeps s (shelfEvent n act t) := (h.selectRises.trans (acts _)).clockOut n

theorem agentEvent (h : Keeps s t) (n position : Nat) (fields : State → Bool) {act : Position → State → State}
    (acts : ∀ p u, Keeps u (act p u)) : Keeps s (agentEvent n position fields act t) := by
  refine h.shelfEvent n fun u => ?_
  split
  · exact (refl u).answer _
  · split
    · exact (refl u).answer _
    · split
      · exact acts _ u
      · exact (refl u).answer _

/-! ### The agent key events -/

theorem becomeReady (h : Keeps s t) (p : Position) (notClaiming : ∀ n, (t.agent p).state ≠ .claiming n) :
    Keeps s (becomeReady p t) :=
  (h.enter p _ (.inl rfl) (by simp [notClaiming])).attemptAgent true p

/-- Winding up, entering READY and the attempt that follows (R6). -/
theorem windUpReady (h : Keeps s t) (p : Position) : Keeps s (Machine.becomeReady p (windUp p t)) :=
  (h.windUpEnter p (.ready (windUp p t).now) rfl (by simp)).attemptAgent true p

/-- A completed wrap leaves the state of the record as it was. -/
theorem completeWrap_state (p : Position) (w : WrapWork) (s : State) :
    ((Machine.completeWrap p w s).agent p).state = (s.agent p).state := by
  change ((s.alterAgent p _).agent p).state = _
  rw [alterAgent_agent_self]

theorem wrapReady (h : Keeps s t) (p : Position) (w : WrapWork) (notClaiming : ∀ n, (t.agent p).state ≠ .claiming n) :
    Keeps s (Machine.becomeReady p (Machine.completeWrap p w t)) :=
  (h.completeWrap p w).becomeReady p (by rwa [completeWrap_state])

theorem loginEvent (members : List (Nat × Nat)) (p : Position) (s : State) : Keeps s (loginEvent members p s) := by
  unfold Machine.loginEvent
  split
  · next loggedOut =>
    exact ((((refl s).enter p (.notReady 0) (.inl rfl) (by simp [loggedOut])).alterAgent p _ (.inr rfl) .rfl id).answer _)
  · exact (refl s).answer _

theorem logoutEvent (p : Position) (s : State) : Keeps s (logoutEvent p s) := by
  have taken : Keeps s (logout p s) :=
    ((refl s).windUpEnter p .loggedOut rfl (by simp)).alterAgent p _ (.inr rfl) .rfl id
  cases state : (s.agent p).state with
  | notReady | ready | claiming | wrap | wrapOver =>
    simp only [Machine.logoutEvent, state]
    exact taken.answer _
  | loggedOut | alerting | talking =>
    simp only [Machine.logoutEvent, state]
    exact (refl s).answer _

theorem readyEvent (p : Position) (s : State) : Keeps s (readyEvent p s) := by
  cases state : (s.agent p).state with
  | notReady | wrap | wrapOver =>
    simp only [Machine.readyEvent, state]
    exact ((refl s).windUpReady p).answer _
  | loggedOut | ready | claiming | alerting | talking =>
    simp only [Machine.readyEvent, state]
    exact (refl s).answer _

theorem notReadyEvent (reason : Nat) (p : Position) (s : State) : Keeps s (notReadyEvent reason p s) := by
  have taken : Keeps s ((windUp p s).enter p (.notReady reason)) := (refl s).windUpEnter p _ rfl (by simp)
  cases state : (s.agent p).state with
  | ready | claiming | wrap | wrapOver =>
    simp only [Machine.notReadyEvent, state]
    exact taken.answer _
  | alerting =>
    simp only [Machine.notReadyEvent, state]
    split
    · exact (refl s).answer _
    · exact ((refl s).releaseAlert p _ _ (by simp [state])).answer _
  | loggedOut | notReady | talking =>
    simp only [Machine.notReadyEvent, state]
    exact (refl s).answer _

theorem answerEvent (p : Position) (s : State) : Keeps s (answerEvent p s) := by
  unfold Machine.answerEvent
  split
  · next b _ alerting =>
    have talking := (refl s).talk p alerting
    refine (serveRoom (t := answerBound p b (Machine.talk p b s)) ?_).answer _
    unfold answerBound
    split
    · split
      · exact talking.connect _
      · exact talking
    · exact (talking.countTakenFromPeers _).reply _ _ trivial
  all_goals exact (refl s).answer _

theorem clearEvent (p : Position) (s : State) : Keeps s (clearEvent p s) := by
  unfold Machine.clearEvent
  split
  · next b talking =>
    have cleared : Keeps s (s.alterAgent p fun a => { a with extensionUsed := false }) :=
      (refl s).alterAgent p _ (.inr rfl) .rfl id
    have state : ((s.alterAgent p fun a => { a with extensionUsed := false }).agent p).state = .talking b := by
      rw [alterAgent_agent_self]
      exact talking
    refine Keeps.answer (t := clear p b.group s) ?_ _
    unfold clear
    dsimp only
    split
    · exact cleared.enter p _ (.inl rfl) (by simp [state])
    · split
      · exact cleared.wrapReady p _ (by simp [state])
      · exact cleared.enter p _ (.inl rfl) (by simp [state])
  all_goals exact (refl s).answer _

theorem wrapDoneEvent (p : Position) (s : State) : Keeps s (wrapDoneEvent p s) := by
  unfold Machine.wrapDoneEvent
  split
  · next wrap => exact ((refl s).wrapReady p _ (by simp [wrap])).answer _
  · next wrap => exact ((refl s).wrapReady p _ (by simp [wrap])).answer _
  all_goals exact (refl s).answer _

theorem extendWrap (p : Position) (s : State) : Keeps s (extendWrap p s) := by
  have spent : Keeps s (s.alterAgent p fun a => { a with extensionUsed := true }) :=
    (refl s).alterAgent p _ (.inr rfl) .rfl id
  unfold Machine.extendWrap
  dsimp only
  split
  · next wrap => exact spent.alterAgent p _ (.inl rfl) (by simp [wrap]) id
  · next wrap =>
    split
    · exact spent.enter p _ (.inl rfl) (by simp [wrap])
    · exact spent
  all_goals exact spent

theorem wrapExtendEvent (p : Position) (s : State) : Keeps s (wrapExtendEvent p s) := by
  unfold Machine.wrapExtendEvent
  split
  · split
    · exact (refl s).answer _
    · exact (extendWrap p s).answer _
  · split
    · exact (refl s).answer _
    · exact (extendWrap p s).answer _
  all_goals exact (refl s).answer _

/-! ### The trunk events -/

theorem seizeEvent (x : Trunk) (g p : Nat) (tag : Half) (s : State) : Keeps s (seizeEvent x g p tag s) := by
  unfold Machine.seizeEvent
  split
  · exact (refl s).answer _
  · next service =>
    split
    · exact (refl s).answer _
    · split
      · exact (refl s).answer _
      · split
        · exact (refl s).answer _
        · next c found =>
          refine drive (attemptCall (startTreatment (countOffered ?_ _) c) c) _
          exact (refl s).seized ((freeSlot_eq_some_iff s c).1 found).1 (by simpa using service) (by simp [seizedCall]) rfl

theorem trunkSideAnswer (h : Keeps s t) (c : Slot) (p : Position) : Keeps s (trunkSideAnswer c p t) := by
  unfold Machine.trunkSideAnswer
  split
  · next alerting =>
    split
    · exact h.talk p alerting
    · exact h
  all_goals exact h

theorem answeredEvent (x : Trunk) (s : State) : Keeps s (answeredEvent x s) := by
  unfold Machine.answeredEvent
  split
  · exact (refl s).answer _
  · split
    · exact (refl s).answer _
    · split
      · unfold answerCall
        split
        · exact (refl s).answer _
        · exact (refl s).answer _
        · exact (((refl s).trunkSideAnswer _ _).connect _).serveRoom.answer _
        · exact ((refl s).connect _).serveRoom.answer _
        · exact (refl s).answer _
      · exact (refl s).answer _

theorem releaseCall (h : Keeps s t) (c : Slot) (k : Call) : Keeps s (releaseCall c k t) := by
  have counted : Keeps s (if k.state = .connected then t else Machine.countAbandoned k.group t) := by
    split
    · exact h
    · exact h.countAbandoned _
  refine freeCall ?_ c
  generalize (if k.state = .connected then t else Machine.countAbandoned k.group t) = u at counted ⊢
  have told (p : Station) : Keeps s (match u.refOf c with
      | some r => u.reply p (.cancel r)
      | none => u) := by
    split
    · exact counted.reply _ _ trivial
    · exact counted
  unfold releaseByState
  split
  · exact counted
  · exact counted
  · exact told _
  · exact told _
  · split
    · exact counted.unbind _
    · exact counted

theorem releaseEvent (x : Trunk) (s : State) : Keeps s (releaseEvent x s) := by
  unfold Machine.releaseEvent
  split
  · exact (refl s).answer _
  · split
    · exact (refl s).answer _
    · split
      · exact (refl s).answer _
      · split
        · exact (refl s).answer _
        · exact ((refl s).releaseCall _ _).answer _

end Keeps
end Sys2Proof.Machine
end

section
/-! PROOFS that time, the deadlines and the load keep the six invariants, then every command, and so every step. -/

namespace Sys2Proof.Machine

/-- A number clamped to a range is in it (R179). -/
theorem clampTo_range {lo hi : Nat} (h : lo ≤ hi) (n : Nat) : lo ≤ clampTo lo hi n ∧ clampTo lo hi n ≤ hi := by
  unfold clampTo
  split
  · exact ⟨le_rfl, h⟩
  · split <;> omega

/-- The AHT figures of an image are between 1 and 3600 (R55, R179). -/
theorem initialAht_range (img : List Byte) (g : Group) :
    1 ≤ (configurationOf img).groups[g].initialAht ∧ (configurationOf img).groups[g].initialAht ≤ 3600 := by
  have field : (configurationOf img).groups[g].initialAht = clampTo 1 3600 (u16 img (groupAt g.val + 18)) := by
    simp [configurationOf, groupOf, fieldOf, clamped, groupFields]
  rw [field]
  exact clampTo_range (by decide) _

namespace Keeps
variable {s t : State}

/-! ### Time -/

theorem takeFrameCount (h : Keeps s t) : Keeps s (takeFrameCount t) := by
  refine (modClips (h.modTime _ (fun below => ?_) ?_) _ id fun fit => ⟨fit.level, fit.epoch, fit.room⟩).beginDrive
  · split
    · exact Nat.zero_lt_succ _
    · change t.time.frames + 1 < 800
      omega
  · split <;> exact le_rfl

theorem syncReturn (h : Keeps s t) : Keeps s (syncReturn t) := (h.modTime _ id le_rfl).takeFrameCount

theorem advance (h : Keeps s t) : Keeps s (t.modTime Timebase.advance) := by
  refine h.modTime _ (fun below => ?_) ?_ <;> unfold Timebase.advance <;> split
  · exact below
  · exact below
  · exact Nat.le_succ _
  · exact le_rfl

theorem takeSecond (h : Keeps s t) : Keeps s (takeSecond t) := (h.modTime _ id le_rfl).secondEvent

theorem streamOutput (h : Keeps s t) (n : StreamId) : Keeps s (streamOutput n t) := by
  have out : Keeps s (Machine.outputSample n (t.modClips fun c => { c with frameCursor := n.val + 1 })).1 :=
    outputSample (h.modClips _ id fun fit => ⟨fit.level, fit.epoch, fit.room⟩) n
  unfold Machine.streamOutput
  dsimp only
  split
  · exact out.clipFinished _
  · exact out

/-! ### The deadlines -/

theorem tierChange (h : Keeps s t) (c : Slot) (tier : Fin 3) : Keeps s (tierChange c tier t) :=
  (h.raiseTier c tier).attemptCall c

theorem maxWaitReached (h : Keeps s t) (c : Slot) (k : Call) : Keeps s (maxWaitReached c k t) := by
  have due : Keeps s (t.alterCall c fun k => { k with divertPending := true }) := h.alterCall c _ fun _ _ => rfl
  unfold Machine.maxWaitReached
  dsimp only
  split
  · exact due.divertDue c
  · exact due

theorem enterActive (h : Keeps s t) {d : Nat} (joining : t.bus.station = .joining d) : Keeps s (enterActive t) := by
  refine activePass (choose (h.withBus { t.bus with station := .active } (fun _ starting => ?_) (fun fit => ?_)
    (fun counted => { counted with }) fun _ sends => ?_))
  · simp [joining] at starting
  · exact { fit with sending := fun _ => fit.sending (by rw [joining]; rfl) }
  · refine { sends with replies := fun _ => rfl, ordinary := fun _ => rfl, slot := fun _ => rfl, inHand := fun l inHand => ?_ }
    refine ⟨?_, (sends.inHand l inHand).2⟩
    cases l <;> rfl

theorem probe (h : Keeps s t) {d : Nat} (fault : t.bus.station = .busFault d) : Keeps s (probe t) := by
  have asked : Keeps s (if t.bus.slot.isNone then Machine.placeSummary t else t) := by
    split
    · exact h.placeSummary (by rw [fault]; rfl)
    · exact h
  have same : (if t.bus.slot.isNone then Machine.placeSummary t else t).bus.station = .busFault d := by
    split
    · change (Bus.choose (Bus.takeSummary _ t.bus)).station = _
      rw [Bus.choose_station]
      simp [fault]
    · exact fault
  unfold Machine.probe
  generalize (if t.bus.slot.isNone then Machine.placeSummary t else t) = u at asked same ⊢
  refine asked.withBus _ (fun _ starting => ?_) (fun fit => ?_) (fun counted => { counted with }) fun _ sends => ?_
  · simp [same] at starting
  · exact { fit with sending := by simp [StationState.sendsReplies] }
  · have silent : u.bus.station.sendsReplies = false := by rw [same]; rfl
    have noOrdinary : u.bus.station.sendsOrdinary = false := by rw [same]; rfl
    refine { sends with
      replies := fun some => absurd (silent.symm.trans (sends.replies some)) (by simp)
      ordinary := fun some => absurd (noOrdinary.symm.trans (sends.ordinary some)) (by simp)
      slot := fun _ => rfl
      inHand := fun l inHand => ?_ }
    obtain ⟨may, held⟩ := sends.inHand l inHand
    rw [same] at may
    refine ⟨?_, held⟩
    cases l with
    | summary => rfl
    | reply | ordinary => exact may

/-! ### The load -/

/-- Nothing is queued or sent while the image is read (R118, R128). -/
theorem withStation (h : Keeps s t) (load : LoadUnit) (clamped : t.load.clamped ≤ 65535 → load.clamped ≤ 65535)
    (done : load.reading = none) (reading : t.load.reading.isSome = true) (station : StationState)
    (silent : station.sendsReplies = false) : Keeps s { t with load, bus := { t.bus with station } } := by
  refine h.trans ⟨fun b => (bounded_iff _).2 ?_, fun b => (countersBounded_iff _).2 ?_, id, id, ?_,
    fun agree => (sendersAgree_iff _).2 ?_⟩
  · obtain ⟨directives, bus, rest⟩ := (bounded_iff _).1 b
    exact ⟨directives, { bus with sending := by simp [silent] }, rest⟩
  · obtain ⟨agents, groups, clips, deferrals, treat, stale, within, bus⟩ := (countersBounded_iff _).1 b
    exact ⟨agents, groups, clips, deferrals, treat, stale, clamped within, { bus with }⟩
  · rintro ⟨once, queued, ordered, arrived, -⟩
    exact ⟨once, queued, ordered, arrived, by simp [done]⟩
  · obtain ⟨load, sends⟩ := (sendersAgree_iff _).1 agree
    have starting := load reading
    refine ⟨by simp [done], { sends with
      replies := fun some => absurd (sends.replies some) (by simp [starting, StationState.sendsReplies])
      ordinary := fun some => absurd (sends.ordinary some) (by simp [starting, StationState.sendsOrdinary])
      slot := fun some => absurd (sends.slot some) (by simp [starting, StationState.sendsSummaries])
      inHand := fun l inHand => ?_ }⟩
    have may := (sends.inHand l inHand).1
    cases l <;> simp [starting, laneAllowed, StationState.sendsReplies, StationState.sendsOrdinary,
      StationState.sendsSummaries] at may

theorem loadFault (h : Keeps s t) (code : Nat) (reading : t.load.reading.isSome = true) : Keeps s (loadFault code t) :=
  (h.withStation { t.load with reading := none } id rfl reading .unconfigured rfl).modPort _ id

/-- What the blocks take from the image, before the station joins (R180): no call waits, and nothing is in hand. -/
theorem handedOver (h : Keeps s t) (reading : t.load.reading.isSome = true) (cfg : Option Configuration) (clamped : Nat)
    (within : clamped ≤ 65535) (aht : Vector Nat 16) (figures : ∀ g : Group, 1 ≤ aht[g] ∧ aht[g] ≤ 3600)
    (time : Timebase) (frames : time.frames = t.time.frames) (id' : Option Station) (rng : Option Half) :
    Keeps s { t with cfg, aht, time, load := { reading := none, clamped }, bus := { t.bus with id := id', rng } } := by
  refine h.trans ⟨fun b => (bounded_iff _).2 ?_, fun b => (countersBounded_iff _).2 ?_, id, id, ?_,
    fun agree => (sendersAgree_iff _).2 ?_⟩
  · obtain ⟨directives, bus, claims, below, -⟩ := (bounded_iff _).1 b
    exact ⟨directives, { bus with }, claims, frames.trans_lt below, figures⟩
  · obtain ⟨agents, groups, clips, deferrals, treat, stale, -, bus⟩ := (countersBounded_iff _).1 b
    exact ⟨agents, groups, clips, deferrals, treat, stale, within, { bus with }⟩
  · rintro ⟨once, queued, ordered, -, load⟩
    refine ⟨once, queued, ordered, fun c k held => ?_, by simp⟩
    exact absurd (held.symm.trans ((load reading).2 c)) (by simp)
  · obtain ⟨load, sends⟩ := (sendersAgree_iff _).1 agree
    have idle : t.bus.inHand = none := by
      cases inHand : t.bus.inHand with
      | none => rfl
      | some l =>
        have may := (sends.inHand l inHand).1
        rw [load reading] at may
        cases l <;> cases may
    exact ⟨by simp, { sends with line := fun f line => absurd (sends.no_line idle ▸ line) (by simp) }⟩

theorem loadEnd (h : Keeps s t) (img : List Byte) (reading : t.load.reading.isSome = true)
    (starting : SendersAgree s → t.bus.station = .starting) : Keeps s (loadEnd img t) := by
  have held := h.handedOver reading (some (configurationOf img)) (clampCount img) (saturate_le ..)
    (Vector.ofFn fun g => (configurationOf img).groups[g].initialAht)
    (fun g => by simpa using initialAht_range img g)
    { t.time with ds := 0, running := true, divisor := (configurationOf img).divisor } rfl
    (some (Fin.ofNat 15 (u8 img 7)))
    (some (seedRandom (configurationOf img).seed (Fin.ofNat 15 (u8 img 7))))
  exact ((held.enterJoining (.inl rfl) fun agree => by rw [starting agree]; rfl).placeSummary rfl).startBrisk.beginDrive

theorem loadBytes (bytes : List Byte) (s : State) : Keeps s (loadBytes bytes s) := by
  unfold Machine.loadBytes
  cases reading : s.load.reading with
  | none => exact refl s
  | some r =>
    obtain ⟨got, sum⟩ := r
    have running : s.load.reading.isSome = true := by rw [reading]; rfl
    have more (all : List Byte) (total : Nat) :
        Keeps s (s.modLoad fun l => { l with reading := some (all, total) }) := by
      refine ⟨id, id, id, id, ?_, ?_⟩
      · rintro ⟨once, queued, ordered, arrived, load⟩
        exact ⟨once, queued, ordered, arrived, fun _ => load running⟩
      · rintro ⟨load, sends⟩
        exact ⟨fun _ => load running, sends⟩
    dsimp only
    split
    · split
      · exact (refl s).loadFault _ running
      · exact more _ _
    · split
      · split
        · exact (refl s).loadFault 3 running
        · split
          · exact (refl s).loadFault _ running
          · exact (refl s).loadEnd _ running fun agree => agree.1 running
      · exact more _ _

/-! ### The commands -/

theorem attend (h : Keeps s t) (before : State) : Keeps s (attend before t) := by
  unfold Machine.attend
  split
  · exact h.modPort _ id
  · exact h

/-- A command's effect and the line's response to it. -/
theorem of_event {effect : State → State} {u : State} (h : Keeps s (effect t)) (e : event effect t = .next u) :
    Keeps s u := by
  cases e
  exact h.attend t

theorem restartEvent (c : RestartClocking) (s : State) : Keeps s (restartEvent c s) := by
  have bytes (n : Nat) (sync : Bool) (u : State) (h : Keeps s u) : Keeps s (restartBytes n sync u) := by
    unfold restartBytes
    split
    · exact h
    · exact (h.emit _).inTransaction _
  unfold Machine.restartEvent
  split
  · exact (bytes _ _ _ ((refl s).opened _)).selectRises
  · exact (refl s).opened _
  · exact refl s
  · split
    · exact bytes _ _ _ (refl s)
    · exact refl s

/-! The deadlines of the agents. -/

theorem execAlertDeadline (p : Position) {s t : State} (e : Machine.execAlertDeadline p s = .next t) : Keeps s t := by
  refine of_event ?_ e
  split
  · split
    · exact ((refl s).unawait _).takeRona p
    · exact (refl s).await _
  · exact refl s

theorem execRona (p : Position) {s t : State} (e : Machine.execRona p s = .next t) : Keeps s t := by
  refine of_event ?_ e
  split
  · split
    · exact ((refl s).unawait _).takeRona p
    · exact refl s
  · exact refl s

theorem execWrapExpiry (p : Position) {s t : State} (e : Machine.execWrapExpiry p s = .next t) : Keeps s t := by
  refine of_event ?_ e
  split
  · next wrap =>
    split
    · split
      · exact (refl s).wrapReady p _ (by simp [wrap])
      · exact (refl s).enter p _ (.inl rfl) (by simp [wrap])
    · exact refl s
  all_goals exact refl s

theorem execGraceDeadline (p : Position) {s t : State} (e : Machine.execGraceDeadline p s = .next t) : Keeps s t := by
  refine of_event ?_ e
  split
  · next wrap =>
    split
    · exact ((refl s).completeWrap p _).enter p _ (.inl rfl) (by rw [completeWrap_state]; simp [wrap])
    · exact refl s
  all_goals exact refl s

theorem execClaimDeadline (p : Position) {s t : State} (e : Machine.execClaimDeadline p s = .next t) : Keeps s t := by
  refine of_event ?_ e
  split
  · split
    · exact ((refl s).endClaim p).attemptAgent false p
    · exact refl s
  · exact refl s

/-! The deadlines of the calls. -/

theorem execTierDeadline (c : Slot) (tier : TierStep) {s t : State} (e : Machine.execTierDeadline c tier s = .next t) : Keeps s t := by
  refine of_event ?_ e
  split
  · split
    · exact (refl s).tierChange c _
    · exact refl s
  · exact refl s

theorem execMaxWaitDeadline (c : Slot) {s t : State} (e : Machine.execMaxWaitDeadline c s = .next t) : Keeps s t := by
  refine of_event ?_ e
  split
  · dsimp only
    split
    · exact (refl s).maxWaitReached c _
    · exact refl s
  · exact refl s

theorem execDivert (c : Slot) {s t : State} (e : Machine.execDivert c s = .next t) : Keeps s t := by
  refine of_event ?_ e
  split
  · split
    · exact ((refl s).unawait _).takeDivert c
    · exact refl s
  · exact refl s

theorem execOfferDeadline (c : Slot) {s t : State} (e : Machine.execOfferDeadline c s = .next t) : Keeps s t := by
  refine of_event ?_ e
  split
  · next offered =>
    split
    · refine (refl s).clearMark c _ _ _ (fun _ keeps => keeps) fun k held => ?_
      rw [held] at offered
      simp [Option.some.inj offered]
    · exact refl s
  all_goals exact refl s

theorem execAnswerWatchExpiry (c : Slot) {s t : State} (e : Machine.execAnswerWatchExpiry c s = .next t) : Keeps s t := by
  refine of_event ?_ e
  split
  · split
    · split
      · exact ((refl s).unawait _).takeWatch c
      · exact (refl s).await _
    · exact refl s
  all_goals exact refl s

theorem execStepDeadline (c : Slot) {s t : State} (e : Machine.execStepDeadline c s = .next t) : Keeps s t := by
  refine of_event ?_ e
  split
  · split
    · exact (refl s).endDeadline c
    · exact refl s
  · exact refl s

/-! The deadlines of the station, and its transmitter. -/

theorem execJoinDeadline {s t : State} (e : Machine.execJoinDeadline s = .next t) : Keeps s t := by
  refine of_event ?_ e
  split
  · next joining =>
    split
    · exact (refl s).enterActive joining
    · exact refl s
  all_goals exact refl s

theorem execProbeDeadline {s t : State} (e : Machine.execProbeDeadline s = .next t) : Keeps s t := by
  refine of_event ?_ e
  split
  · next fault =>
    split
    · exact (refl s).probe fault
    · exact refl s
  all_goals exact refl s

theorem execAbsenceDeadline (p : Station) {s t : State} (e : Machine.execAbsenceDeadline p s = .next t) : Keeps s t := by
  refine of_event ?_ e
  split
  · split
    · exact (refl s).losePeer p
    · exact refl s
  · exact refl s

theorem execHoldDeadline {s t : State} (e : Machine.execHoldDeadline s = .next t) : Keeps s t := by
  refine of_event ?_ e
  split
  · exact (refl s).downshift
  · exact refl s

theorem execPeriodDeadline {s t : State} (e : Machine.execPeriodDeadline s = .next t) : Keeps s t := by
  refine of_event ?_ e
  split
  · next building =>
    exact (refl s).downshift.periodStep (by
      rw [downshift_bus]
      exact StationState.sendsSummaries_of_sendsReplies building)
  · exact refl s

theorem execFrameSent {s t : State} (e : Machine.execFrameSent s = .next t) : Keeps s t := by
  refine of_event ?_ e
  split
  · next inHand _ => exact (refl s).frameSent inHand _
  · exact refl s

theorem execCollision {s t : State} (e : Machine.execCollision s = .next t) : Keeps s t := by
  refine of_event ?_ e
  split
  · next inHand _ => exact (refl s).collide inHand
  · exact refl s

/-! The other commands whose condition stands in their meaning. -/

theorem execUnknownCommand (command bytes : Nat) {s t : State} (e : Machine.execUnknownCommand command bytes s = .next t) : Keeps s t := by
  refine of_event ?_ e
  exact ((refl s).selectRises.inTransaction _).drive _

theorem execHighwayFrame {s t : State} (e : Machine.execHighwayFrame s = .next t) : Keeps s t := by
  refine of_event ?_ e
  split
  · exact (refl s).takeFrameCount
  · exact (refl s).syncReturn

theorem execFallbackFrame {s t : State} (e : Machine.execFallbackFrame s = .next t) : Keeps s t := by
  refine of_event ?_ e
  split
  · exact refl s
  · exact (refl s).takeFrameCount

theorem execDecisecond {s t : State} (e : Machine.execDecisecond s = .next t) : Keeps s t := by
  refine of_event ?_ e
  split
  · exact (refl s).advance.ladder
  · exact refl s

theorem execSecondBoundary {s t : State} (e : Machine.execSecondBoundary s = .next t) : Keeps s t := by
  refine of_event ?_ e
  split
  · exact (refl s).takeSecond
  · exact refl s

theorem execWindowHalfBoundary {s t : State} (e : Machine.execWindowHalfBoundary s = .next t) : Keeps s t := by
  refine of_event ?_ e
  split
  · exact (refl s).takeSecond
  · exact refl s

theorem execSyncLost {s t : State} (e : Machine.execSyncLost s = .next t) : Keeps s t := by
  refine of_event ?_ e
  exact beginDrive ((refl s).modTime _ id le_rfl)

theorem execStreamFrameOutput (n : StreamId) {s t : State} (e : Machine.execStreamFrameOutput n s = .next t) : Keeps s t := by
  refine of_event ?_ e
  split
  · exact (refl s).streamOutput n
  · exact refl s

theorem execBusAttempt (slots : Nat) {s t : State} (e : Machine.execBusAttempt slots s = .next t) : Keeps s t := by
  refine of_event ?_ e
  exact (refl s).modBus _ (Bus.attempt_station slots _) (fun fit => fit.attempt slots)
    (fun counted => counted.attempt slots) fun sends => sends.attempt slots

theorem execFrameCheckError (bytes : List Byte) {s t : State} (e : Machine.execFrameCheckError bytes s = .next t) : Keeps s t := by
  refine of_event ?_ e
  split
  · exact refl s
  · exact (refl s).receive _

theorem execAttentionPulseEnd {s t : State} (e : Machine.execAttentionPulseEnd s = .next t) : Keeps s t := by
  refine of_event ?_ e
  exact (refl s).modPort _ id

/-- Every command keeps the six invariants. -/
theorem exec (i : Instr) (s : State) {t : State} (e : exec i s = .next t) : Keeps s t := by
  cases i with
  | powerOn sync => exact of_event (resetBlock s s sync) e
  | restart c => exact of_event (restartEvent c s) e
  | loadReadArrives bytes => exact of_event (loadBytes _ s) e
  | trunkSeize x g p tag => exact of_event ((refl s).shelfEvent _ fun u => seizeEvent x g p _ u) e
  | trunkAnswered x => exact of_event ((refl s).shelfEvent _ fun u => answeredEvent _ u) e
  | trunkRelease x => exact of_event ((refl s).shelfEvent _ fun u => releaseEvent _ u) e
  | agentLogin p ms => exact of_event ((refl s).agentEvent _ _ _ (loginEvent _)) e
  | agentLogout p => exact of_event ((refl s).agentEvent _ _ _ logoutEvent) e
  | agentReady p => exact of_event ((refl s).agentEvent _ _ _ readyEvent) e
  | agentNotReady p r => exact of_event ((refl s).agentEvent _ _ _ (notReadyEvent _)) e
  | agentAnswer p => exact of_event ((refl s).agentEvent _ _ _ answerEvent) e
  | agentClear p => exact of_event ((refl s).agentEvent _ _ _ clearEvent) e
  | wrapDone p => exact of_event ((refl s).agentEvent _ _ _ wrapDoneEvent) e
  | wrapExtend p => exact of_event ((refl s).agentEvent _ _ _ wrapExtendEvent) e
  | unknownEventKind k => exact of_event ((refl s).shelfEvent _ fun u => (refl u).answer _) e
  | take c => exact of_event ((refl s).clocked _ _ c) e
  | reportAgent p start c => exact of_event ((refl s).clocked _ _ c) e
  | reportGroup g start c => exact of_event ((refl s).clocked _ _ c) e
  | reportStation start c => exact of_event ((refl s).clocked _ _ c) e
  | reportUnknownKind kind subject start c => exact of_event ((refl s).clocked _ _ c) e
  | attention c => exact of_event ((refl s).clocked _ _ c) e
  | changes c => exact of_event ((refl s).clocked _ _ c) e
  | unknownCommand command bytes => exact execUnknownCommand command bytes e
  | transactionAbort => exact of_event (refl s).selectRises e
  | highwayFrame => exact execHighwayFrame e
  | fallbackFrame => exact execFallbackFrame e
  | decisecond => exact execDecisecond e
  | secondBoundary => exact execSecondBoundary e
  | windowHalfBoundary => exact execWindowHalfBoundary e
  | syncLost => exact execSyncLost e
  | syncReturns => exact of_event (refl s).syncReturn e
  | streamFrameOutput n => exact execStreamFrameOutput n e
  | readArrives bytes => exact of_event ((refl s).arriveRead _) e
  | alertDeadline p => exact execAlertDeadline p e
  | rona p => exact execRona p e
  | wrapExpiry p => exact execWrapExpiry p e
  | graceDeadline p => exact execGraceDeadline p e
  | claimDeadline p => exact execClaimDeadline p e
  | tierDeadline c tier => exact execTierDeadline c tier e
  | maxWaitDeadline c => exact execMaxWaitDeadline c e
  | divert c => exact execDivert c e
  | offerDeadline c => exact execOfferDeadline c e
  | answerWatchExpiry c => exact execAnswerWatchExpiry c e
  | stepDeadline c => exact execStepDeadline c e
  | retryPass => exact of_event (refl s).retryIfRoom e
  | treatmentResume => exact of_event (refl s).resumeAll e
  | busAttempt slots => exact execBusAttempt slots e
  | frameCheckError bytes => exact execFrameCheckError bytes e
  | summary | offer | claim | accept | decline | cancel | answered | returned | nocall =>
    exact of_event ((refl s).receive _) e
  | joinDeadline => exact execJoinDeadline e
  | probeDeadline => exact execProbeDeadline e
  | absenceDeadline p => exact execAbsenceDeadline p e
  | holdDeadline => exact execHoldDeadline e
  | periodDeadline => exact execPeriodDeadline e
  | frameSent => exact execFrameSent e
  | collision => exact execCollision e
  | attentionPulseEnd => exact execAttentionPulseEnd e

/-- Every step keeps the six invariants. -/
theorem step {s t : State} (e : step s = .next t) : Keeps s t := by
  unfold Machine.step at e
  split at e
  · cases e
    exact refl s
  · exact ((refl s).withPending _).trans (exec _ _ e)

end Keeps

/-! ### The obligations -/

/-- Settles O54. -/
theorem resetMeetsTheInvariants : Obligations.ResetMeetsTheInvariants :=
  ⟨bounded_resetWith true, countersBounded_resetWith true, fifosFit_resetWith true, bindingsAgree_resetWith true,
    queuesAgree_resetWith true, sendersAgree_resetWith true⟩

/-- Settles O55: every step keeps the six invariants, this one among them. -/
theorem stepKeepsBounded : Obligations.StepKeepsBounded := fun _ _ held e => (Keeps.step e).bounded held

/-- Settles O56. -/
theorem stepKeepsCountersBounded : Obligations.StepKeepsCountersBounded := fun _ _ held e => (Keeps.step e).counters held

/-- Settles O57. -/
theorem stepKeepsFifosFit : Obligations.StepKeepsFifosFit := fun _ _ held e => (Keeps.step e).fifos held

/-- Settles O58. -/
theorem stepKeepsBindingsAgree : Obligations.StepKeepsBindingsAgree := fun _ _ held e => (Keeps.step e).bindings held

/-- Settles O59. -/
theorem stepKeepsQueuesAgree : Obligations.StepKeepsQueuesAgree := fun _ _ held e => (Keeps.step e).queues held

/-- Settles O60. -/
theorem stepKeepsSendersAgree : Obligations.StepKeepsSendersAgree := fun _ _ held e => (Keeps.step e).senders held

end Sys2Proof.Machine
end

section
/-! PROOFS of the machine, the resets, the events that are refused, and the attention line (R4, R30, R165, R166, R175, R181). -/

namespace Sys2Proof.Machine

/-! ### The machine -/

theorem exec_continues (c : Instr) (s : State) : Continues (exec c s) := by
  cases c <;> exact ⟨_, rfl⟩

theorem step_continues (s : State) : Continues (step s) := by
  unfold step
  split
  · exact ⟨s, rfl⟩
  · exact exec_continues _ _

/-- Settles O1. -/
theorem stepTakesTheFrontCommand : Obligations.StepTakesTheFrontCommand :=
  ⟨fun _ _ => rfl, fun s idle => by simp only [step, idle]⟩

/-- Settles O2: a run is a chain of steps, and each of them ends in a next state. -/
theorem noCommandStopsTheBlock : Obligations.NoCommandStopsTheBlock := by
  refine ⟨exec_continues, fun n => ?_⟩
  induction n with
  | zero => exact fun s => ⟨s, rfl⟩
  | succ n ih =>
    intro s
    obtain ⟨t, next⟩ := step_continues s
    have first : core.step s = .next t := next
    have run : core.run (n + 1) s = core.run n t := by simp only [Host.Core.run, first]
    rw [SafeFor, run]
    exact ih t

/-! ### The resets (R181) -/

/-- A reset leaves level mode, in which no pulse starts (R175). -/
theorem exec_powerOn (sync : Bool) (s : State) : exec (.powerOn sync) s = .next (resetBlock sync s) :=
  congrArg Host.Outcome.next (attend_of_level rfl)

theorem attend_restartReset (sync : Bool) (before s : State) : attend before (restartReset sync s) = restartReset sync s :=
  attend_of_level rfl

theorem causePending_resetBlock (sync : Bool) (s : State) (c : Cause) : causePending (resetBlock sync s) c = false := by
  rw [Bool.eq_false_iff]
  cases c with
  | loadFault | clockLoss | isolated | directivesPending => exact Bool.false_ne_true
  | peerChange =>
    simp only [causePending, ne_eq, anyStation_iff, not_exists]
    intro p
    simp [resetBlock, State.resetWith]
  | agentChange =>
    have marks (p : Position) : p ∉ marked (resetBlock sync s) := by
      simp [mem_marked, resetBlock, State.resetWith, State.agent, Agent.reset]
    simp [causePending, List.eq_nil_iff_forall_not_mem, marks]

/-- In level mode with no cause pending the line is high (R175). -/
theorem lineLow_resetBlock (sync : Bool) (s : State) : lineLow (resetBlock sync s) = false := by
  have level : (resetBlock sync s).pulseMode = false := rfl
  simp [lineLow, level, causePending_resetBlock]

/-- Settles O3. -/
theorem powerOnResetsEveryBlock : Obligations.PowerOnResetsEveryBlock := by
  intro sync s
  refine ⟨_, exec_powerOn sync s, rfl, fun p => ?_, fun c => ?_, fun g => ⟨?_, ?_, ?_⟩, rfl, fun v => ?_, fun b => ?_, rfl,
    rfl, rfl, fun n => ?_, rfl, rfl, fun i => ?_, rfl, rfl, rfl, rfl, rfl, rfl, rfl, fun q => ⟨?_, ?_⟩, rfl, rfl, rfl, rfl,
    rfl, rfl, rfl, rfl, rfl, rfl, rfl, rfl, rfl, rfl, rfl, rfl, rfl, rfl, rfl, rfl, rfl, rfl,
    causePending_resetBlock sync s, lineLow_resetBlock sync s, rfl, rfl, rfl⟩
  all_goals
    simp [resetBlock, State.resetWith, State.agent, State.slotRec, State.queue, State.stream, Agent.reset]

/-- The bytes of the outcome are TAKEN and then zeros, and both are 0 (R165, R166). -/
theorem clockedOut_taken (n : Nat) : clockedOut n [OutcomeCode.taken.byte] = List.replicate n 0 := by
  have zeros : [OutcomeCode.taken.byte] ++ List.replicate n 0 = List.replicate (n + 1) (0 : Byte) := rfl
  rw [clockedOut, zeros, List.take_replicate, Nat.min_eq_left (Nat.le_succ n)]

/-- Opening a RESTART changes only the transaction and the record of the bytes driven (R165). -/
theorem opened_restart {s : State} (h : NoRestart s) : opened (fun _ => .restart none) s =
    { s with port := { s.port with transaction := .restart none, out := [] } } := by
  rw [opened, selectRises_raised h]
  rfl

/-- What `resetBlock` leaves does not depend on the state before it, but for the waiting commands. -/
theorem restartReset_eq (sync : Bool) (s t : State) (same : t.pending = s.pending) : restartReset sync t =
    { resetBlock sync s with port := { (resetBlock sync s).port with out := t.port.out } } := by
  simp only [restartReset, resetBlock, same]
  rfl

theorem selectRises_pending (s : State) : (selectRises s).pending = s.pending := by
  unfold selectRises
  split <;> rfl

theorem restartBytes_pending (n : Nat) (sync : Bool) (s : State) : (restartBytes n sync s).pending = s.pending := by
  unfold restartBytes
  split <;> rfl

theorem exec_restart_through (s : State) (n : Nat) (sync : Bool) : exec (.restart (.through (n + 1) sync)) s =
    .next { resetBlock sync s with port := { (resetBlock sync s).port with out := List.replicate (n + 1) 0 } } := by
  have event : exec (.restart (.through (n + 1) sync)) s =
      .next (attend s (selectRises (restartBytes (n + 1) sync (opened (fun _ => .restart none) s)))) := rfl
  have rises : selectRises (restartBytes (n + 1) sync (opened (fun _ => .restart none) s)) =
      restartReset sync (restartBytes (n + 1) sync (opened (fun _ => .restart none) s)) := rfl
  have record : (restartBytes (n + 1) sync (opened (fun _ => .restart none) s)).port.out = List.replicate (n + 1) 0 :=
    clockedOut_taken (n + 1)
  have pending : (restartBytes (n + 1) sync (opened (fun _ => .restart none) s)).pending = s.pending :=
    (restartBytes_pending ..).trans (selectRises_pending s)
  rw [event, rises, attend_restartReset, restartReset_eq sync s _ pending, record]

theorem attend_transaction (s : State) (x : Transaction) (bytes : List Byte) :
    attend s { s with port := { s.port with transaction := x, out := bytes } } =
      { s with port := { s.port with transaction := x, out := bytes } } :=
  attend_same rfl rfl rfl rfl rfl fun _ => rfl

/-- Settles O4: the rise of select after the outcome byte is the reset of a power-on, whichever command raises it. -/
theorem restartIsTheSameReset : Obligations.RestartIsTheSameReset := by
  refine ⟨fun s n sync => ⟨_, exec_powerOn sync s, exec_restart_through s n sync⟩,
    fun s sync waits => ⟨_, exec_powerOn sync s, ?_⟩, fun s h => ⟨fun sync => ?_, ?_⟩, fun s found sync waits => ?_⟩
  · have rises : selectRises s = restartReset sync s := by simp only [selectRises, waits]
    have event : exec .transactionAbort s = .next (attend s (selectRises s)) := rfl
    rw [event, rises, attend_restartReset, restartReset_eq sync s s rfl]
  · have event : exec (.restart (.through 0 sync)) s =
        .next (attend s (selectRises (opened (fun _ => .restart none) s))) := rfl
    rw [event, opened_restart h]
    exact congrArg Host.Outcome.next (attend_answered s [])
  · have event : exec (.restart .opens) s = .next (attend s (opened (fun _ => .restart none) s)) := rfl
    rw [event, opened_restart h, attend_transaction]
  · have event : exec (.restart (.lastBit sync)) s =
        .next (attend s (if s.port.transaction.isRestart then restartBytes 1 sync s else s)) := rfl
    have underway : s.port.transaction.isRestart = true := by rw [waits]; rfl
    rw [event, if_pos underway]
    exact congrArg Host.Outcome.next (attend_transaction s (.restart (some sync)) (s.port.out ++ [0]))

/-- Settles O5. -/
theorem selectRiseEndsTheTransaction : Obligations.SelectRiseEndsTheTransaction := by
  refine fun s h => ⟨?_, fun command n => ?_⟩
  · have event : exec .transactionAbort s = .next (attend s (selectRises s)) := rfl
    rw [event, selectRises_raised h]
    exact congrArg Host.Outcome.next (attend_transaction s .idle s.port.out)
  · have event : exec (.unknownCommand command n) s =
        .next (attend s (((selectRises s).inTransaction .idle).drive (List.replicate n 0))) := rfl
    rw [event, selectRises_raised h]
    exact congrArg Host.Outcome.next (attend_answered s (List.replicate n 0))

/-! ### The attention line (R175) -/

/-- Settles O36. -/
theorem attentionLineFollowsTheCauses : Obligations.AttentionLineFollowsTheCauses := by
  have every (c : Cause) : c ∈ causes := by cases c <;> decide
  refine ⟨fun s level => ?_, fun s pulses => ?_, fun before after pulses ⟨c, now, not⟩ => ?_, fun before after quiet => ?_,
    fun s => ?_⟩
  · simp only [lineLow, level, Bool.false_eq_true, if_false, List.any_eq_true]
    exact ⟨fun ⟨c, _, pending⟩ => ⟨c, pending⟩, fun ⟨c, pending⟩ => ⟨c, every c, pending⟩⟩
  · simp only [lineLow, pulses, if_true]
  · have new : causes.any (fun c => causePending after c && !causePending before c) = true :=
      List.any_eq_true.2 ⟨c, every c, by simp [now, not]⟩
    simp only [attend, pulses, new]
    rfl
  · rcases quiet with level | fewer
    · exact attend_of_level level
    · exact attend_of_no_new_cause fewer
  · exact congrArg Host.Outcome.next (attend_same rfl rfl rfl rfl rfl fun _ => rfl)

/-! ### Events refused (R4, R30, R166) -/

theorem outOfService_raised (s : State) : (raised s).outOfService = s.outOfService := rfl

/-- An EVENT whose taking answers and does nothing else. -/
theorem shelfEvent_answers {s : State} (h : NoRestart s) (n : Nat) {act : State → State} {o : OutcomeCode}
    (answers : act (raised s) = (raised s).answer o) :
    event (shelfEvent n act) s = .next (answered s (clockedOut n [o.byte])) := by
  rw [event_shelfEvent h, answers, answer_clockOut, raised_drive, attend_answered]

theorem agentEvent_outOfService {s : State} (h : NoRestart s) (out : s.outOfService = true) (n position : Nat)
    (fields : State → Bool) (act : Position → State → State) :
    event (agentEvent n position fields act) s = .next (answered s (clockedOut n [4])) :=
  shelfEvent_answers h n (o := .refusedStarting) (if_pos out)

theorem agentEvent_noPosition {s : State} (h : TakesEvents s) {position : Nat} (beyond : 48 ≤ position) (n : Nat)
    (fields : State → Bool) (act : Position → State → State) :
    event (agentEvent n position fields act) s = .next (answered s (clockedOut n [2])) := by
  obtain ⟨service, noRestart⟩ := h
  refine shelfEvent_answers noRestart n (o := .refusedRange) ?_
  rw [if_neg (by rw [outOfService_raised, service]; exact Bool.false_ne_true), dif_neg (Nat.not_lt.2 beyond)]

theorem exec_of_outOfService {c : Instr} {s : State} {z : Nat} (clocks : c.clocksOut = some z) (out : s.outOfService = true)
    (h : NoRestart s) : exec c s = .next (answered s (clockedOut z [4])) := by
  cases c <;> cases clocks
  case trunkSeize.refl x g p tag =>
    exact shelfEvent_answers h tag.clocked (act := seizeEvent x g p tag.value) (o := .refusedStarting) (if_pos out)
  case trunkAnswered.refl x =>
    exact shelfEvent_answers h x.clocked (act := answeredEvent x.value) (o := .refusedStarting) (if_pos out)
  case trunkRelease.refl x =>
    exact shelfEvent_answers h x.clocked (act := releaseEvent x.value) (o := .refusedStarting) (if_pos out)
  case unknownEventKind.refl kind =>
    exact shelfEvent_answers h kind.clocked (o := .refusedStarting) (congrArg (State.answer _) (if_pos out))
  all_goals exact agentEvent_outOfService h out _ _ _ _

/-- Settles O8. -/
theorem eventsAreRefused : Obligations.EventsAreRefused := by
  refine ⟨fun c s z clocks out h => exec_of_outOfService clocks out h, fun s h => ⟨fun kind z => ?_, fun c n z names clocks beyond => ?_,
    fun p r z high => ?_⟩, fun answer z => ⟨fun short => ?_, clockedOut_long⟩⟩
  · obtain ⟨service, noRestart⟩ := h
    refine shelfEvent_answers noRestart z (o := .refusedRange) ?_
    rw [outOfService_raised, service]
    rfl
  · cases c <;> cases names <;> cases clocks <;> exact agentEvent_noPosition h beyond _ _ _
  · exact event_agentEvent_refusedRange h p _ _ z (by simp; omega)
  · rw [clockedOut_short short]
    exact ⟨List.take_prefix _ _, by simpa using short⟩

end Sys2Proof.Machine
end

section
/-! PROOFS of the REPORT transactions (R24, R46, R116, R165, R170, R171). First how any report is clocked, field by field:
each field reads as it did at the start, because no field is cleared by reading another; then what the clearing of a run
of fields leaves, for each subject. -/

namespace Sys2Proof.Machine

/-! ### Fields and the port -/

theorem reportField_port (s : State) (port : Port) (about : ReportOf) (n : Nat) :
    reportField { s with port } about n = reportField s about n := by
  cases about <;> rfl

theorem clearField_port (s : State) (port : Port) (about : ReportOf) (n : Nat) :
    clearField about n { s with port } = { clearField about n s with port } := by
  cases about with
  | agent p => simp only [clearField, clearAgentField]; split <;> rfl
  | group g => simp only [clearField, clearGroupField]; split <;> rfl
  | station => simp only [clearField, clearStationField]; split <;> rfl
  | unknown => rfl

theorem clearField_keeps_port (s : State) (about : ReportOf) (n : Nat) : (clearField about n s).port = s.port := by
  have kept : clearField about n s = { clearField about n s with port := s.port } := clearField_port s s.port about n
  rw [kept]

/-- Clearing a counter makes no attention cause pending. -/
theorem clearField_causes (s : State) (about : ReportOf) (n : Nat) : (clearField about n s).time = s.time ∧
    (clearField about n s).peers = s.peers ∧ ∀ p, ((clearField about n s).agent p).changed = (s.agent p).changed := by
  cases about with
  | agent q =>
    have marks (f : AgentCounts → AgentCounts) (p : Position) :
        ((s.alterAgent q fun a => { a with counts := f a.counts }).agent p).changed = (s.agent p).changed := by
      rw [State.alterAgent_agent]
      split
      · next same => rw [same]
      · rfl
    simp only [clearField, clearAgentField]
    split
    · exact ⟨rfl, rfl, marks fun n => { n with answered := 0 }⟩
    · exact ⟨rfl, rfl, marks fun n => { n with talk := 0 }⟩
    · exact ⟨rfl, rfl, marks fun n => { n with wrap := 0 }⟩
    · exact ⟨rfl, rfl, marks fun n => { n with overrun := 0 }⟩
    · exact ⟨rfl, rfl, marks fun n => { n with rona := 0 }⟩
    · exact ⟨rfl, rfl, fun _ => rfl⟩
  | group g => simp only [clearField, clearGroupField]; split <;> exact ⟨rfl, rfl, fun _ => rfl⟩
  | station => simp only [clearField, clearStationField]; split <;> exact ⟨rfl, rfl, fun _ => rfl⟩
  | unknown => exact ⟨rfl, rfl, fun _ => rfl⟩

/-! ### Clocking a report -/

theorem opened_report {s : State} (h : NoRestart s) (about : ReportOf) (start : Nat) :
    opened (fun _ => .report about start none) s =
      { s with port := { s.port with transaction := .report about start none, out := [] } } := by
  rw [opened, selectRises_raised h]
  rfl

theorem firstBit_report {s : State} {about : ReportOf} {n : Nat} (due : s.port.transaction = .report about n none) :
    firstBit s = { s with port := { s.port with transaction := .report about n (some (reportField s about n)) } } := by
  simp only [firstBit, due]
  rfl

theorem lastBit_report_latched {s : State} {about : ReportOf} {n : Nat} {bytes : List Byte}
    (latched : s.port.transaction = .report about n (some bytes)) : lastBit s = clearField about n { s with
      port := { s.port with transaction := .report about (n + 1) none, out := s.port.out ++ bytes } } := by
  have first : firstBit s = s := by simp only [firstBit, latched]
  simp only [lastBit, first, latched]
  rfl

theorem lastBit_report_due {s : State} {about : ReportOf} {n : Nat} (due : s.port.transaction = .report about n none) :
    lastBit s = clearField about n { s with port := { s.port with
      transaction := .report about (n + 1) none, out := s.port.out ++ reportField s about n } } := by
  have first := firstBit_report due
  have again : firstBit (firstBit s) = firstBit s := by rw [first]; rfl
  have same : lastBit s = lastBit (firstBit s) := by simp only [lastBit, again]
  rw [same, lastBit_report_latched (s := firstBit s) (about := about) (n := n) (bytes := reportField s about n)
    (by rw [first]), first]

/-- The state after `n` fields from `start` have been cleared, one after the other. -/
def fieldsCleared (about : ReportOf) (start : Nat) : Nat → State → State
  | 0, s => s
  | n + 1, s => clearField about (start + n) (fieldsCleared about start n s)

/-- A field of a subject is not changed by clearing another. -/
def FieldsApart (about : ReportOf) : Prop :=
  ∀ (s : State) (i j : Nat), i ≠ j → reportField (clearField about i s) about j = reportField s about j

theorem reportField_fieldsCleared {about : ReportOf} (apart : FieldsApart about) (s : State) (start n j : Nat)
    (later : start + n ≤ j) : reportField (fieldsCleared about start n s) about j = reportField s about j := by
  induction n with
  | zero => rfl
  | succ n ih => rw [fieldsCleared, apart _ _ _ (by omega), ih (by omega)]

theorem fieldsCleared_causes (about : ReportOf) (start n : Nat) (s : State) : (fieldsCleared about start n s).time = s.time ∧
    (fieldsCleared about start n s).peers = s.peers ∧
    ∀ p, ((fieldsCleared about start n s).agent p).changed = (s.agent p).changed := by
  induction n with
  | zero => exact ⟨rfl, rfl, fun _ => rfl⟩
  | succ n ih =>
    obtain ⟨time, peers, marks⟩ := ih
    obtain ⟨time', peers', marks'⟩ := clearField_causes (fieldsCleared about start n s) about (start + n)
    exact ⟨time'.trans time, peers'.trans peers, fun p => (marks' p).trans (marks p)⟩

/-- The bytes of `n` fields of a subject from `start`, as they stand now. -/
def reportBytes (about : ReportOf) (start n : Nat) (s : State) : List Byte :=
  (List.range n).flatMap fun i => reportField s about (start + i)

theorem clockItems_report {s : State} (h : NoRestart s) {about : ReportOf} (apart : FieldsApart about) (start n : Nat) :
    clockItems n (opened (fun _ => .report about start none) s) = { fieldsCleared about start n s with port := { s.port with
      transaction := .report about (start + n) none, out := reportBytes about start n s } } := by
  induction n with
  | zero => exact opened_report h about start
  | succ n ih =>
    rw [clockItems_succ, ih, lastBit_report_due rfl, clearField_port, reportField_port,
      reportField_fieldsCleared apart s start n _ le_rfl, reportBytes, reportBytes, List.range_succ, List.flatMap_append,
      List.flatMap_singleton, clearField_port (fieldsCleared about start n s)]
    rfl

/-- A REPORT of `n` fields: the bytes of the fields, and the fields cleared (R170). -/
theorem exec_report_through {s : State} (h : NoRestart s) {about : ReportOf} (apart : FieldsApart about) (start n : Nat) :
    event (reportFrom about start (.through n)) s = .next { fieldsCleared about start n s with port := { s.port with
      transaction := .idle, out := reportBytes about start n s } } := by
  have clocked : reportFrom about start (.through n) s =
      selectRises (clockItems n (opened (fun _ => .report about start none) s)) := rfl
  obtain ⟨time, peers, marks⟩ := fieldsCleared_causes about start n s
  rw [event_eq, clocked, clockItems_report h apart]
  refine congrArg Host.Outcome.next (attend_same rfl ?_ rfl ?_ rfl marks)
  · exact congrArg Timebase.clockLoss time
  · exact congrArg PeerView.changed peers

theorem clearedBy_zero (start f x : Nat) : clearedBy start 0 f x = x := if_neg (by omega)

theorem clearedBy_succ (start n f x : Nat) :
    clearedBy start (n + 1) f x = if f = start + n then 0 else clearedBy start n f x := by
  unfold clearedBy
  split_ifs <;> omega

/-- A report's fields as one list: the bytes of a run of them (R170). -/
theorem reportBytes_eq {about : ReportOf} {s : State} {fields : List (List Byte)}
    (each : ∀ i, reportField s about i = fields.getD i [0]) (start n : Nat) :
    reportBytes about start n s = fieldsFrom fields start n := by
  simp only [reportBytes, fieldsFrom, each]

/-! ### Reports of no subject -/

theorem fieldsApart_unknown : FieldsApart .unknown := fun _ _ _ _ => rfl

theorem fieldsCleared_unknown (start n : Nat) (s : State) : fieldsCleared .unknown start n s = s := by
  induction n with
  | zero => rfl
  | succ n ih => rw [fieldsCleared, ih]; rfl

theorem reportBytes_unknown (start n : Nat) (s : State) : reportBytes .unknown start n s = List.replicate n 0 := by
  have zero : ∀ i, reportField s .unknown (start + i) = [0] := fun _ => rfl
  simp only [reportBytes, zero]
  induction n with
  | zero => rfl
  | succ n ih => rw [List.range_succ, List.flatMap_append, ih, List.replicate_succ']; rfl

theorem exec_report_unknown {s : State} (h : NoRestart s) (start n : Nat) :
    event (reportFrom .unknown start (.through n)) s = .next (answered s (List.replicate n 0)) := by
  rw [exec_report_through h fieldsApart_unknown, fieldsCleared_unknown, reportBytes_unknown]
  rfl

theorem agentSubject_beyond {position : Nat} (h : 48 ≤ position) : agentSubject position = .unknown := by
  simp [agentSubject, inRange, Nat.not_lt.2 h]

theorem groupSubject_beyond {group : Nat} (h : 16 ≤ group) : groupSubject group = .unknown := by
  simp [groupSubject, inRange, Nat.not_lt.2 h]

theorem agentSubject_val (p : Position) : agentSubject p.val = .agent p := by simp [agentSubject, inRange]

theorem groupSubject_val (g : Group) : groupSubject g.val = .group g := by simp [groupSubject, inRange]

theorem exec_reportInstr (about : ReportOf) (start : Nat) (c : Clocking) (s : State) :
    exec (reportInstr about start c) s = event (reportFrom about start c) s := by
  cases about with
  | agent p => exact congrArg (fun about => event (reportFrom about start c) s) (agentSubject_val p)
  | group g => exact congrArg (fun about => event (reportFrom about start c) s) (groupSubject_val g)
  | station | unknown => rfl

/-- Settles O29. -/
theorem reportsAreClockedFieldByField : Obligations.ReportsAreClockedFieldByField := by
  refine ⟨fun s about start h => ?_, fun s about start n due => ?_, fun s about start n bytes latched => ?_,
    fun s kind subject start n h => ⟨exec_report_unknown h start n, fun beyond => ?_, fun beyond => ?_⟩⟩
  · have clocked : reportFrom about start .opens s = opened (fun _ => .report about start none) s := rfl
    rw [exec_reportInstr, event_eq, clocked, opened_report h, attend_transaction]
  · have underway : Transaction.isReport about s.port.transaction = true := by rw [due]; exact decide_eq_true rfl
    have clocked : reportFrom about start .firstBit s = firstBit s := if_pos underway
    rw [exec_reportInstr, event_eq, clocked, firstBit_report due]
    exact congrArg Host.Outcome.next (attend_transaction s _ s.port.out)
  · have underway : Transaction.isReport about s.port.transaction = true := by rw [latched]; exact decide_eq_true rfl
    have clocked : reportFrom about start .lastBit s = lastBit s := if_pos underway
    rw [exec_reportInstr, event_eq, clocked, lastBit_report_latched latched]
    let driven : State := { s with
      port := { s.port with transaction := .report about (n + 1) none, out := s.port.out ++ bytes } }
    obtain ⟨time, peers, marks⟩ := clearField_causes driven about n
    have port := clearField_keeps_port driven about n
    exact congrArg Host.Outcome.next (attend_same (congrArg Port.loadFault port :)
      (congrArg Timebase.clockLoss time) (congrArg Port.isolated port :) (congrArg PeerView.changed peers)
      (congrArg Port.directives port :) marks)
  · have subject' := agentSubject_beyond beyond
    have event' : exec (.reportAgent subject start (.through n)) s = event (reportFrom (agentSubject subject) start (.through n)) s := rfl
    rw [event', subject']
    exact exec_report_unknown h start n
  · have subject' := groupSubject_beyond beyond
    have event' : exec (.reportGroup subject start (.through n)) s = event (reportFrom (groupSubject subject) start (.through n)) s := rfl
    rw [event', subject']
    exact exec_report_unknown h start n

end Sys2Proof.Machine
end

section
/-! PROOFS that the REPORT of each subject returns its fields in order and clears the counters it read (R24, R46, R116,
R170, R171). -/

namespace Sys2Proof.Machine

theorem fieldsAreNumbers : FieldsAreNumbers := fun n => by
  simp [twoBytes_eq, lowByte_toNat, highByte_toNat]

/-! ### Runs of fields -/

theorem clearedBy_one (field f x : Nat) : clearedBy field 1 f x = if f = field then 0 else x := by
  rw [clearedBy_succ, clearedBy_zero, Nat.add_zero]

theorem clearedBy_one_other {field f : Nat} (apart : field ≠ f) (x : Nat) : clearedBy field 1 f x = x := by
  rw [clearedBy_one, if_neg (Ne.symm apart)]

theorem clearedBy_next (start n f x : Nat) :
    clearedBy (start + n) 1 f (clearedBy start n f x) = clearedBy start (n + 1) f x := by
  rw [clearedBy_one, clearedBy_succ]

/-! ### REPORT AGENT -/

/-- The accumulators of an agent record after `n` fields from `start` have been read (R24). -/
def agentCountsRead (start n : Nat) (c : AgentCounts) : AgentCounts :=
  ⟨clearedBy start n 7 c.answered, clearedBy start n 8 c.talk, clearedBy start n 9 c.wrap,
    clearedBy start n 10 c.overrun, clearedBy start n 11 c.rona⟩

theorem clearAgentField_eq (p : Position) (field : Nat) (s : State) :
    clearAgentField p field s = s.alterAgent p fun a => { a with counts := agentCountsRead field 1 a.counts } := by
  simp only [agentCountsRead, clearedBy_one]
  unfold clearAgentField
  split
  case h_6 h7 h8 h9 h10 h11 =>
    refine congrArg (fun agents => { s with agents }) (alter_id s.agents p ?_).symm
    simp [Ne.symm h7, Ne.symm h8, Ne.symm h9, Ne.symm h10, Ne.symm h11]
  all_goals simp

theorem fieldsApart_agent (p : Position) : FieldsApart (.agent p) := by
  intro s i j apart
  have record : (clearAgentField p i s).agent p = { s.agent p with counts := agentCountsRead i 1 (s.agent p).counts } := by
    rw [clearAgentField_eq, alterAgent_agent_self]
  simp only [reportField, clearField, agentField, record]
  rw [clearAgentField_eq]
  split
  case h_8 | h_9 | h_10 | h_11 | h_12 => simp only [agentCountsRead, clearedBy_one_other apart]
  all_goals rfl

theorem fieldsCleared_agent (p : Position) (start n : Nat) (s : State) : fieldsCleared (.agent p) start n s =
    s.alterAgent p fun a => { a with counts := agentCountsRead start n a.counts } := by
  induction n with
  | zero =>
    refine congrArg (fun agents => { s with agents }) (alter_id s.agents p ?_).symm
    simp only [agentCountsRead, clearedBy_zero]
  | succ n ih =>
    rw [fieldsCleared, ih, clearField, clearAgentField_eq, State.alterAgent, State.alterAgent, alter_alter]
    simp only [agentCountsRead, clearedBy_next]
    rfl

theorem exec_reportAgent {s : State} (h : NoRestart s) (p : Position) (start n : Nat) :
    exec (.reportAgent p.val start (.through n)) s = .next { s with
      agents := alter s.agents p fun a => { a with counts := agentCountsRead start n a.counts }
      port := { s.port with transaction := .idle, out := reportBytes (.agent p) start n s } } := by
  have reported : exec (.reportAgent p.val start (.through n)) s =
      event (reportFrom (agentSubject p.val) start (.through n)) s := rfl
  rw [reported, agentSubject_val, exec_report_through h (fieldsApart_agent p), fieldsCleared_agent]
  rfl

/-- Settles O30. -/
theorem reportAgentReadsAndClears : Obligations.ReportAgentReadsAndClears := by
  refine ⟨fieldsAreNumbers, fun _ _ _ _ _ _ => ⟨rfl, rfl, rfl, rfl, rfl, rfl, rfl, rfl⟩, fun st => ⟨?_, ?_, ?_, ?_⟩,
    fun s a => ⟨?_, ?_⟩, fun s p start n h => ?_⟩
  · rintro r rfl
    rfl
  · intro other
    cases st with
    | notReady r => exact absurd rfl (other r)
    | _ => rfl
  · rintro t b d (rfl | rfl) <;>
    · simp [bindingBytes, AgentState.binding, lowByte_toNat]
      omega
  · intro other
    cases st with
    | alerting t b d => exact absurd rfl (other t b d).1
    | talking b => exact absurd rfl (other 0 b 0).2
    | _ => rfl
  · intro none
    rw [primaryScore, none]
    rfl
  · intro m rest members
    rw [primaryScore, members]
    rfl
  · rw [exec_reportAgent h, reportBytes_eq (about := .agent p) (s := s) (fields := _) fun i => ?_]
    · rfl
    · match i with
      | 0 | 1 | 2 | 3 | 4 | 5 | 6 | 7 | 8 | 9 | 10 | 11 => rfl
      | i + 12 => rfl

/-! ### REPORT GROUP -/

/-- The accumulators of a group after `n` fields from `start` have been read (R46). -/
def groupCountsRead (start n : Nat) (c : GroupCounts) : GroupCounts :=
  ⟨clearedBy start n 6 c.offeredIn, clearedBy start n 7 c.answeredLocal, clearedBy start n 8 c.answeredByPeers,
    clearedBy start n 9 c.takenFromPeers, clearedBy start n 10 c.abandoned, clearedBy start n 11 c.diverted,
    clearedBy start n 12 c.ronaReturns⟩

theorem clearGroupField_eq (g : Group) (field : Nat) (s : State) :
    clearGroupField g field s = s.alterCounts g (groupCountsRead field 1) := by
  unfold groupCountsRead
  simp only [clearedBy_one]
  unfold clearGroupField
  split
  case h_8 h6 h7 h8 h9 h10 h11 h12 =>
    refine congrArg (fun counts => { s with counts }) (alter_id s.counts g ?_).symm
    simp [Ne.symm h6, Ne.symm h7, Ne.symm h8, Ne.symm h9, Ne.symm h10, Ne.symm h11, Ne.symm h12]
  all_goals simp

theorem fieldsApart_group (g : Group) : FieldsApart (.group g) := by
  intro s i j apart
  have record : (s.alterCounts g (groupCountsRead i 1)).counts[g] = groupCountsRead i 1 s.counts[g] := alter_get_self ..
  simp only [reportField, clearField, groupField, clearGroupField_eq, record]
  split
  case h_7 | h_8 | h_9 | h_10 | h_11 | h_12 | h_13 => simp only [groupCountsRead, clearedBy_one_other apart]
  all_goals rfl

theorem fieldsCleared_group (g : Group) (start n : Nat) (s : State) :
    fieldsCleared (.group g) start n s = s.alterCounts g (groupCountsRead start n) := by
  induction n with
  | zero =>
    refine congrArg (fun counts => { s with counts }) (alter_id s.counts g ?_).symm
    simp only [groupCountsRead, clearedBy_zero]
  | succ n ih =>
    rw [fieldsCleared, ih, clearField, clearGroupField_eq, State.alterCounts, State.alterCounts, alter_alter]
    unfold groupCountsRead
    simp only [clearedBy_next]
    rfl

theorem exec_reportGroup {s : State} (h : NoRestart s) (g : Group) (start n : Nat) :
    exec (.reportGroup g.val start (.through n)) s = .next { s with
      counts := alter s.counts g (groupCountsRead start n)
      port := { s.port with transaction := .idle, out := reportBytes (.group g) start n s } } := by
  have reported : exec (.reportGroup g.val start (.through n)) s =
      event (reportFrom (groupSubject g.val) start (.through n)) s := rfl
  rw [reported, groupSubject_val, exec_report_through h (fieldsApart_group g), fieldsCleared_group]
  rfl

/-- Settles O31. -/
theorem reportGroupReadsAndClears : Obligations.ReportGroupReadsAndClears := by
  refine ⟨fieldsAreNumbers, fun s g start n h => ?_⟩
  rw [exec_reportGroup h, reportBytes_eq (about := .group g) (s := s) (fields := _) fun i => ?_]
  · rfl
  · match i with
    | 0 | 1 | 2 | 3 | 4 | 5 | 6 | 7 | 8 | 9 | 10 | 11 | 12 => rfl
    | i + 13 => rfl

/-! ### REPORT STATION -/

/-- The station after `n` fields of its report from `start` have been read (R116, R170). -/
def stationRead (start n : Nat) (s : State) : State :=
  { s with
    bus := { s.bus with
      framesSent := clearedBy start n 4 s.bus.framesSent, framesReceived := clearedBy start n 5 s.bus.framesReceived
      checkErrors := clearedBy start n 6 s.bus.checkErrors, collisions := clearedBy start n 7 s.bus.collisions
      dropped := clearedBy start n 8 s.bus.dropped, repliesLost := clearedBy start n 10 s.bus.repliesLost }
    exch := { s.exch with stale := clearedBy start n 9 s.exch.stale }
    treat := { s.treat with
      shortages := clearedBy start n 11 s.treat.shortages, stalls := clearedBy start n 12 s.treat.stalls }
    clips := { s.clips with streams := Vector.ofFn fun i =>
      { s.clips.streams[i] with underruns := clearedBy start n 13 s.clips.streams[i].underruns } }
    deferrals := clearedBy start n 14 s.deferrals
    load := { s.load with clamped := clearedBy start n 15 s.load.clamped } }

theorem stationRead_zero (start : Nat) (s : State) : stationRead start 0 s = s := by
  have streams : (Vector.ofFn fun i : Fin 16 => s.clips.streams[i]) = s.clips.streams := by ext i hi; simp
  simp only [stationRead, clearedBy_zero]
  rw [streams]

theorem stationRead_next (start n : Nat) (s : State) :
    stationRead (start + n) 1 (stationRead start n s) = stationRead start (n + 1) s := by
  simp only [stationRead, clearedBy_next, Fin.getElem_fin, Vector.getElem_ofFn]

theorem clearStationField_eq (field : Nat) (s : State) : clearStationField field s = stationRead field 1 s := by
  have streams : (Vector.ofFn fun i : Fin 16 => s.clips.streams[i]) = s.clips.streams := by ext i hi; simp
  simp only [stationRead, clearedBy_one]
  unfold clearStationField
  split
  case h_13 h4 h5 h6 h7 h8 h9 h10 h11 h12 h13 h14 h15 =>
    rw [if_neg (Ne.symm h4), if_neg (Ne.symm h5), if_neg (Ne.symm h6), if_neg (Ne.symm h7), if_neg (Ne.symm h8),
      if_neg (Ne.symm h9), if_neg (Ne.symm h10), if_neg (Ne.symm h11), if_neg (Ne.symm h12), if_neg (Ne.symm h14),
      if_neg (Ne.symm h15)]
    simp only [if_neg (Ne.symm h13), streams]
  case h_10 => simp [State.modClips, alterAll_eq]
  all_goals
    simp only [Nat.reduceEqDiff, if_true, if_false, streams]
    rfl

theorem fieldsApart_station : FieldsApart .station := by
  intro s i j apart
  simp only [reportField, clearField, clearStationField_eq, stationField]
  split
  case h_5 | h_6 | h_7 | h_8 | h_9 | h_10 | h_11 | h_12 | h_13 | h_15 | h_16 =>
    simp only [stationRead, clearedBy_one_other apart]
  case h_14 =>
    have streams : (Vector.ofFn fun i : Fin 16 => s.clips.streams[i]) = s.clips.streams := by ext i hi; simp
    simp only [underruns, stationRead, clearedBy_one_other apart, streams]
  all_goals rfl

theorem fieldsCleared_station (start n : Nat) (s : State) : fieldsCleared .station start n s = stationRead start n s := by
  induction n with
  | zero => exact (stationRead_zero start s).symm
  | succ n ih => rw [fieldsCleared, ih, clearField, clearStationField_eq, stationRead_next]

theorem exec_reportStation {s : State} (h : NoRestart s) (start n : Nat) :
    exec (.reportStation start (.through n)) s = .next { stationRead start n s with
      port := { s.port with transaction := .idle, out := reportBytes .station start n s } } := by
  have reported : exec (.reportStation start (.through n)) s = event (reportFrom .station start (.through n)) s := rfl
  rw [reported, exec_report_through h fieldsApart_station, fieldsCleared_station]

/-- Settles O32. -/
theorem reportStationReadsAndClears : Obligations.ReportStationReadsAndClears := by
  refine ⟨fieldsAreNumbers, fun _ => ⟨rfl, rfl, rfl, rfl, rfl, rfl⟩, fun st => ⟨?_, ?_⟩, rfl, rfl, rfl, rfl, rfl,
    fun s n => ?_, fun s start n h => ?_⟩
  · cases st <;> simp [StationState.cause]
  · cases st <;> simp [StationState.cause]
  · rw [stationBits_testBit]
    simp [presentPeers, Option.isSome_iff_ne_none]
  · rw [exec_reportStation h, reportBytes_eq (about := .station) (s := s) (fields := _) fun i => ?_]
    · rfl
    · match i with
      | 0 | 1 | 2 | 3 | 4 | 5 | 6 | 7 | 8 | 9 | 10 | 11 | 12 | 14 | 15 => rfl
      | 13 => exact congrArg twoBytes (saturate_eq_min ..)
      | i + 16 => rfl

end Sys2Proof.Machine
end

section
/-! PROOFS of the ATTENTION transaction (R172, R173): the top cause is the pending one of lowest code; what its items do;
then the command. -/

namespace Sys2Proof.Machine

/-! ### The top cause (R172) -/

theorem mem_causes (c : Cause) : c ∈ causes := by cases c <;> decide

theorem causeByte_injective {c d : Cause} (same : causeByte (some c) = causeByte (some d)) : c = d := by
  have coded (e : Cause) : causes[causeByte (some e) - 1]? = some e := by cases e <;> rfl
  exact Option.some.inj ((coded c).symm.trans ((congrArg (fun n => causes[n - 1]?) same).trans (coded d)))

theorem causes_ascend : causes.Pairwise fun c d => causeByte (some c) < causeByte (some d) := by
  simp [causes, causeByte]

theorem topCause_eq_none_iff (s : State) : topCause s = none ↔ ∀ c, causePending s c = false := by
  simp only [topCause, List.find?_eq_none, mem_causes, true_imp_iff, Bool.not_eq_true]

theorem topCause_least {s : State} {c d : Cause} (top : topCause s = some c) (pending : causePending s d = true) :
    causeByte (some c) ≤ causeByte (some d) := by
  obtain ⟨-, before, after, split, none⟩ := List.find?_eq_some_iff_append.1 top
  have ascend := causes_ascend
  have mem := mem_causes d
  rw [split] at ascend mem
  rcases List.mem_append.1 mem with earlier | later
  · simp at none
    exact absurd pending (by simpa using none d earlier)
  · rcases List.mem_cons.1 later with rfl | later
    · exact le_rfl
    · exact (List.rel_of_pairwise_cons (List.pairwise_append.1 ascend).2.1 later).le

theorem topCause_eq_some_iff (s : State) (c : Cause) : topCause s = some c ↔ causePending s c = true ∧
    ∀ d, causePending s d = true → causeByte (some c) ≤ causeByte (some d) := by
  refine ⟨fun top => ⟨List.find?_some top, fun d pending => topCause_least top pending⟩, fun ⟨pending, least⟩ => ?_⟩
  cases top : topCause s with
  | none => exact absurd pending (by simp [(topCause_eq_none_iff s).1 top c])
  | some e =>
    have pendingTop : causePending s e = true := List.find?_some top
    rw [causeByte_injective (le_antisymm (topCause_least top pending) (least e pendingTop))]

/-! ### Clearing a cause (R173) -/

/-- The state with this transaction open and these bytes driven. -/
def clockedAt (x : Transaction) (bytes : List Byte) (s : State) : State :=
  { s with port := { s.port with transaction := x, out := bytes } }

/-- Clearing a cause does not look at the transaction or at the bytes driven. -/
theorem clearCause_clockedAt (cause : Option Cause) (detail : Nat) (s : State) (x : Transaction) (bytes : List Byte) :
    clearCause cause detail (clockedAt x bytes s) = clockedAt x bytes (clearCause cause detail s) := by
  match cause with
  | none | some .loadFault | some .directivesPending | some .agentChange | some .isolated | some .peerChange => rfl
  | some .clockLoss => exact (apply_ite (clockedAt x bytes) (s.time.syncPresent = true)
      (s.modTime fun t => { t with clockLoss := false }) s).symm

theorem attend_clearCause (cause : Option Cause) (detail : Nat) (s : State) (x : Transaction) (bytes : List Byte) :
    attend s (clearCause cause detail (clockedAt x bytes s)) = clearCause cause detail (clockedAt x bytes s) := by
  refine attend_of_no_new_cause fun c pending => ?_
  have before := causePending_clearCause cause detail _ c pending
  cases c <;> exact before

/-- Every station of the changed set stands in the detail that returns the set. -/
theorem changed_returned (set : StationSet) :
    (Vector.ofFn fun i : Fin 15 => set[i] && !((stationBits set).testBit i.val)) = Vector.replicate 15 false := by
  ext i hi
  have shown (marked : set[i] = true) : (stationBits set).testBit i = true :=
    (stationBits_testBit set i).2 ⟨⟨i, hi⟩, rfl, marked⟩
  simpa using shown

/-! ### The items of an ATTENTION (R165, R173) -/

/-- The cause and the detail an ATTENTION takes at its first bit. -/
def attentionTaken (s : State) : Option Cause × Nat := (topCause s, ((topCause s).map (causeDetail s)).getD 0)

/-- The three bytes of an ATTENTION (R173). -/
def attentionBytes (taken : Option Cause × Nat) : List Byte := lowByte (causeByte taken.1) :: twoBytes taken.2

theorem opened_attention {s : State} (h : NoRestart s) : opened (fun _ => .attention none false) s =
    { s with port := { s.port with transaction := .attention none false, out := [] } } := by
  rw [opened, selectRises_raised h]
  rfl

theorem firstBit_attention {s : State} {done : Bool} (due : s.port.transaction = .attention none done) :
    firstBit s = { s with port := { s.port with transaction := .attention (some (attentionTaken s)) done } } := by
  simp only [firstBit, due]
  rfl

theorem lastBit_attention {s : State} {cause : Option Cause} {detail : Nat}
    (latched : s.port.transaction = .attention (some (cause, detail)) false) :
    lastBit s = clearCause cause detail
      (clockedAt (.attention (some (cause, detail)) true) (s.port.out ++ attentionBytes (cause, detail)) s) := by
  have first : firstBit s = s := by simp only [firstBit, latched]
  simp only [lastBit, first, latched]
  rfl

theorem lastBit_attention_due {s : State} (due : s.port.transaction = .attention none false) :
    lastBit s = clearCause (attentionTaken s).1 (attentionTaken s).2
      (clockedAt (.attention (some (attentionTaken s)) true) (s.port.out ++ attentionBytes (attentionTaken s)) s) := by
  have first := firstBit_attention due
  have again : firstBit (firstBit s) = firstBit s := by rw [first]; rfl
  have same : lastBit s = lastBit (firstBit s) := by simp only [lastBit, again]
  rw [same, lastBit_attention (s := firstBit s) (by rw [first]), first]
  rfl

theorem lastBit_attention_done {s : State} {taken : Option Cause × Nat}
    (done : s.port.transaction = .attention (some taken) true) : lastBit s = s.emit [0] := by
  have first : firstBit s = s := by simp only [firstBit, done]
  simp only [lastBit, first, done]

theorem clockItems_attention {s : State} (h : NoRestart s) (n : Nat) :
    clockItems (n + 1) (opened (fun _ => .attention none false) s) =
      clearCause (attentionTaken s).1 (attentionTaken s).2 (clockedAt (.attention (some (attentionTaken s)) true)
        (attentionBytes (attentionTaken s) ++ List.replicate n 0) s) := by
  induction n with
  | zero =>
    rw [opened_attention h]
    simp only [List.replicate_zero, List.append_nil]
    exact lastBit_attention_due (s := clockedAt (.attention none false) [] s) rfl
  | succ n ih =>
    rw [clockItems_succ, ih, clearCause_clockedAt, clearCause_clockedAt,
      lastBit_attention_done (taken := attentionTaken s) rfl, List.replicate_succ', ← List.append_assoc]
    rfl

/-! ### The command -/

theorem exec_attention (c : Clocking) (s : State) : exec (.attention c) s =
    .next (attend s (clocked (fun _ => .attention none false) Transaction.isAttention c s)) := rfl

theorem exec_attention_through {s : State} (h : NoRestart s) (n : Nat) : exec (.attention (.through (n + 1))) s =
    .next (answered (clearCause (attentionTaken s).1 (attentionTaken s).2 s)
      (attentionBytes (attentionTaken s) ++ List.replicate n 0)) := by
  have rises : selectRises (clockItems (n + 1) (opened (fun _ => .attention none false) s)) =
      clearCause (attentionTaken s).1 (attentionTaken s).2
        (clockedAt .idle (attentionBytes (attentionTaken s) ++ List.replicate n 0) s) := by
    rw [clockItems_attention h, clearCause_clockedAt, clearCause_clockedAt]
    rfl
  rw [exec_attention, clocked, rises, attend_clearCause, clearCause_clockedAt]
  rfl

theorem exec_attention_through_none {s : State} (h : NoRestart s) (quiet : ∀ c, causePending s c = false) (n : Nat) :
    exec (.attention (.through (n + 1))) s = .next (answered s (List.replicate (n + 3) 0)) := by
  have taken : attentionTaken s = (none, 0) := by rw [attentionTaken, (topCause_eq_none_iff s).2 quiet]; rfl
  rw [exec_attention_through h, taken]
  rfl

theorem exec_attention_through_cause {s : State} (h : NoRestart s) {c : Cause} (top : topCause s = some c) (n : Nat) :
    exec (.attention (.through (n + 1))) s = .next (answered (clearCause (some c) (causeDetail s c) s)
      (lowByte (causeByte (some c)) :: twoBytes (causeDetail s c) ++ List.replicate n 0)) := by
  have taken : attentionTaken s = (some c, causeDetail s c) := by rw [attentionTaken, top]; rfl
  rw [exec_attention_through h, taken]
  rfl

/-- Settles O34: the causes and their details, then the transaction at its points. -/
theorem attentionReturnsTheTopCause : Obligations.AttentionReturnsTheTopCause := by
  refine ⟨fieldsAreNumbers, ⟨rfl, rfl, rfl, rfl, rfl, rfl, rfl⟩, fun s => ⟨Option.isSome_iff_exists, ?_, Iff.rfl, rfl,
    Option.isSome_iff_exists, ?_, ?_, anyStation_iff _, stationBits_testBit _, ?_, rfl, ?_, ⟨marked s, marked_nodup s, rfl,
    mem_marked s⟩, topCause_eq_none_iff s, topCause_eq_some_iff s⟩, fun s h => ⟨?_, ?_, exec_attention_through_none h,
    fun c n pending least => ?_⟩, fun s due => ?_, fun s cause detail latched => ⟨_, rfl, ?_⟩⟩
  · intro code fault
    simp [causeDetail, fault]
  · intro cause
    simp [causeDetail, cause, IsolationCause.code]
  · intro cause
    simp [causeDetail, cause, IsolationCause.code]
  · simp [causePending]
  · simp only [causePending, Bool.not_eq_true', List.isEmpty_eq_false_iff_exists_mem, mem_marked]
  · rw [exec_attention, clocked, clockItems, opened_attention h]
    exact congrArg Host.Outcome.next (attend_answered s [])
  · rw [exec_attention, clocked, opened_attention h, attend_transaction]
  · rw [exec_attention_through_cause h ((topCause_eq_some_iff s c).2 ⟨pending, least⟩)]
    cases c with
    | peerChange =>
      have cleared : clearCause (some .peerChange) (causeDetail s .peerChange) s =
          { s with peers := { s.peers with changed := Vector.replicate 15 false } } :=
        congrArg (fun changed => { s with peers := { s.peers with changed } }) (changed_returned s.peers.changed)
      rw [cleared]
    | _ => rfl
  · have underway : s.port.transaction.isAttention = true := by rw [due]; rfl
    have clocked' : clocked (fun _ => .attention none false) Transaction.isAttention .firstBit s = firstBit s :=
      if_pos underway
    rw [exec_attention, clocked', firstBit_attention due]
    exact congrArg Host.Outcome.next (attend_transaction s _ s.port.out)
  · have underway : s.port.transaction.isAttention = true := by rw [latched]; rfl
    have clocked' : clocked (fun _ => .attention none false) Transaction.isAttention .lastBit s = lastBit s :=
      if_pos underway
    rw [exec_attention, clocked', lastBit_attention latched, attend_clearCause]
    match cause with
    | none | some .loadFault | some .directivesPending | some .agentChange | some .isolated | some .peerChange
    | some .clockLoss => rfl

end Sys2Proof.Machine
end

section
/-! PROOFS of the ends of an alert: the answer of the agent and of the trunk, and the release as a RONA (R7, R8, R14, R16,
R33, R40, R155, R169). -/

namespace Sys2Proof.Machine

/-! ### Marks cleared without a peer, and figures counted -/

/-- The call of an occupied slot is WAITING again, and its watch expiry has left the room-wait list (R40). -/
def waitingAgain (c : Slot) (s : State) : State :=
  unawaited (.watch c) (callBecomes c (fun k => { k with state := .waiting }) s)

theorem clearMark_nobody {s : State} {c : Slot} {k : Call} (held : s.callAt c = some k) (rona : Bool)
    (placing : State → State) : clearMark c none rona placing s = divertOrAttempt c k
      (placing (if rona then countRonaReturn k.group (waitingAgain c s) else waitingAgain c s)) := by
  have cleared : (s.alterCall c fun k => { k with declined := k.declined }).markCall c .waiting = waitingAgain c s := by
    rw [markCall_other c .waiting _ nofun, alterCall_becomes, callBecomes_callBecomes]
    rfl
  simp only [clearMark, held, cleared]
  rfl

theorem countTakenFromPeers_counts (g : Group) (s : State) :
    countTakenFromPeers g s = groupCounts g (fun n => { n with takenFromPeers := min 65535 (n.takenFromPeers + 1) }) s := by
  simp only [countTakenFromPeers, count1_eq_min]
  rfl

/-! ### The release of an alert (R7, R16) -/

/-- The record has left its alert as a RONA does: NOT_READY with the reason, one more RONA, and WITHDRAW (R16). -/
def alertLeft (p : Position) (r : Nat) (s : State) : State :=
  placed [.withdraw p]
    { enters p (.notReady r) s with
      agents := alter s.agents p fun a =>
        { a with
          state := .notReady r, changed := true, deferred := false
          counts := { a.counts with rona := min 65535 (a.counts.rona + 1) } } }

theorem releaseNeed_eq (b : Binding) : releaseNeed b = if b.isLocal = true then 2 else 1 := rfl

theorem releaseNeed_pos (b : Binding) : 0 < releaseNeed b := by
  rw [releaseNeed_eq]
  split <;> omega

theorem told_alertLeft {s : State} (p : Position) (r : Nat) (room : 0 < s.free) :
    ((s.enter p (.notReady r)).alterAgent p fun a =>
      { a with counts := { a.counts with rona := count1 a.counts.rona } }).place (.withdraw p) = alertLeft p r s := by
  have left : (s.enter p (.notReady r)).alterAgent p (fun a =>
      { a with counts := { a.counts with rona := count1 a.counts.rona } }) =
      { enters p (.notReady r) s with
        agents := alter s.agents p fun a =>
          { a with
            state := .notReady r, changed := true, deferred := false
            counts := { a.counts with rona := min 65535 (a.counts.rona + 1) } } } := by
    simp only [enter_enters p (.notReady r) s rfl rfl, State.alterAgent, enters, alter_alter, count1_eq_min]
  rw [left]
  exact place_placed (.withdraw p) room

theorem releaseAlert_remote {s : State} {p : Position} {b : Binding} (r : Nat) (remote : b.isLocal = false)
    (room : releaseNeed b ≤ s.free) : releaseAlert p b r s = (alertLeft p r s).reply b.ref.home (.returned b.ref p) := by
  have some := (releaseNeed_pos b).trans_le room
  simp only [releaseAlert, told_alertLeft p r some, remote, Bool.false_eq_true, if_false]

theorem releaseAlert_unmatched {s : State} {p : Position} {b : Binding} (r : Nat) (isLocal : b.isLocal = true)
    (room : releaseNeed b ≤ s.free) (unmatched : s.alertedCall p b = none) : releaseAlert p b r s = alertLeft p r s := by
  have some := (releaseNeed_pos b).trans_le room
  have nobody : (alertLeft p r s).alertedCall p b = none := unmatched
  simp only [releaseAlert, told_alertLeft p r some, isLocal, if_true, nobody]

theorem callAt_of_alertedCall {s : State} {p : Position} {b : Binding} {k : Call} (alerted : s.alertedCall p b = some k) :
    s.callAt b.ref.slot = some k :=
  callAt_of_named (Option.filter_eq_some_iff.1 alerted).1

theorem releaseAlert_matched {s : State} {p : Position} {b : Binding} {k : Call} (r : Nat) (isLocal : b.isLocal = true)
    (room : releaseNeed b ≤ s.free) (alerted : s.alertedCall p b = some k) :
    releaseAlert p b r s = divertOrAttempt b.ref.slot k (placed [.unroute k.trunk]
      (groupCounts k.group (fun n => { n with ronaReturns := min 65535 (n.ronaReturns + 1) })
        (waitingAgain b.ref.slot (alertLeft p r s)))) := by
  have two : 2 ≤ s.free := by rwa [releaseNeed_eq, if_pos isLocal] at room
  have later : 0 < (groupCounts k.group (fun n => { n with ronaReturns := min 65535 (n.ronaReturns + 1) })
      (waitingAgain b.ref.slot (alertLeft p r s))).free := by
    have length : (alertLeft p r s).port.directives.length = s.port.directives.length + 1 := List.length_append
    have free : (alertLeft p r s).free = s.free - 1 := by
      unfold State.free
      rw [length]
      omega
    exact (Nat.sub_pos_of_lt two).trans_eq free.symm
  have held : (alertLeft p r s).callAt b.ref.slot = some k := callAt_of_alertedCall alerted
  have same : (alertLeft p r s).alertedCall p b = some k := alerted
  have some : 0 < s.free := by omega
  simp only [releaseAlert, told_alertLeft p r some, isLocal, if_true, same]
  rw [clearMark_nobody held, if_pos rfl, countRonaReturn_counts, place_placed _ later]

/-! ### ALERT_DEADLINE and RONA (R16, R169) -/

theorem alertDue_of_alerting {s : State} {p : Position} {since d : Nat} {b : Binding}
    (alerting : (s.agent p).state = .alerting since b d) : alertDue s p = if d ≤ s.now then some b else none := by
  simp only [alertDue, alerting]

theorem takeRona_of_alerting {s : State} {p : Position} {since d : Nat} {b : Binding}
    (alerting : (s.agent p).state = .alerting since b d) : takeRona p s = releaseAlert p b 15 s := by
  simp only [takeRona, alerting]

theorem mayServe_iff (s : State) (w : RoomWait) : s.mayServe w = true ↔ ¬ waitsBehind s w := by
  simp only [State.mayServe, waitsBehind, Bool.or_eq_true, decide_eq_true_eq]
  tauto

theorem mayServe_of_head {s : State} {w : RoomWait} (turn : ¬ waitsBehind s w) : s.mayServe w = true :=
  (mayServe_iff s w).2 turn

theorem mayServe_of_behind {s : State} {w : RoomWait} (behind : waitsBehind s w) : s.mayServe w = false := by
  rw [Bool.eq_false_iff, ne_eq, mayServe_iff, not_not]
  exact behind

theorem awaited_of_waits {s : State} {w : RoomWait} (waits : w ∈ s.port.waits) : awaited w s = s := by
  rw [awaited, if_pos waits]

theorem attend_awaited (w : RoomWait) (s : State) : attend s (awaited w s) = awaited w s :=
  attend_same rfl rfl rfl rfl rfl fun _ => rfl

section
variable {s : State} {p : Position}

theorem exec_alert_early (early : alertDue s p = none) :
    exec (.alertDeadline p) s = .next s ∧ exec (.rona p) s = .next s := by
  constructor
  · change execAlertDeadline p s = _
    simp only [execAlertDeadline, event_eq, early, attend_self]
  · change execRona p s = _
    simp only [execRona, event_eq, early, attend_self]

/-- Without room, or out of its turn, a due alert waits and is not released (R169). -/
theorem exec_alert_waits {b : Binding} (due : alertDue s p = some b)
    (waits : (releaseNeed b ≤ s.free && s.mayServe (.rona p)) = false) :
    exec (.alertDeadline p) s = .next (awaited (.rona p) s) ∧ exec (.rona p) s = .next s := by
  constructor
  · change execAlertDeadline p s = _
    simp only [execAlertDeadline, event_eq, due, waits, Bool.false_eq_true, if_false, await_awaited, attend_awaited]
  · change execRona p s = _
    simp only [execRona, event_eq, due, waits, Bool.false_eq_true, if_false, attend_self]

theorem exec_alert_taken {since d : Nat} {b : Binding} (alerting : (s.agent p).state = .alerting since b d)
    (due : alertDue s p = some b) (room : releaseNeed b ≤ s.free) (turn : ¬ waitsBehind s (.rona p)) :
    exec (.alertDeadline p) s = .next (attend s (releaseAlert p b 15 (unawaited (.rona p) s))) ∧
      exec (.rona p) s = .next (attend s (releaseAlert p b 15 (unawaited (.rona p) s))) := by
  have serves : (releaseNeed b ≤ s.free && s.mayServe (.rona p)) = true := by
    rw [mayServe_of_head turn, decide_eq_true room, Bool.and_self]
  have release : takeRona p (unawaited (.rona p) s) = releaseAlert p b 15 (unawaited (.rona p) s) :=
    takeRona_of_alerting alerting
  constructor
  · change execAlertDeadline p s = _
    simp only [execAlertDeadline, event_eq, due, serves, if_true, unawait_unawaited, release]
  · change execRona p s = _
    simp only [execRona, event_eq, due, serves, if_true, unawait_unawaited, release]

end

/-- Settles O17: the release by the side of the binding, then the two commands by the deadline, the room and the turn. -/
theorem alertReleaseIsTheRona : Obligations.AlertReleaseIsTheRona := by
  intro s p since d b alerting
  have due := alertDue_of_alerting alerting
  refine ⟨fun r room => ⟨alertLeft p r s, rfl, fun remote => releaseAlert_remote r remote room,
    fun isLocal unmatched => releaseAlert_unmatched r isLocal room unmatched, fun k isLocal alerted =>
      ⟨_, rfl, releaseAlert_matched r isLocal room alerted⟩⟩, fun early => ?_, fun reached full => ?_,
    fun reached room c command => ?_⟩
  · rw [if_neg (Nat.not_le.2 early)] at due
    exact exec_alert_early due
  · rw [if_pos reached] at due
    have waits : decide (releaseNeed b ≤ s.free) = false := decide_eq_false (Nat.not_le.2 full)
    exact exec_alert_waits due (by rw [waits, Bool.false_and])
  · rw [if_pos reached] at due
    by_cases behind : waitsBehind s (.rona p)
    · have kept := exec_alert_waits due (by rw [mayServe_of_behind behind, Bool.and_false])
      rw [awaited_of_waits behind.1] at kept
      rw [if_pos behind]
      rcases List.mem_pair.1 command with rfl | rfl
      · exact kept.1
      · exact kept.2
    · have taken := exec_alert_taken alerting due room behind
      rw [if_neg behind]
      rcases List.mem_pair.1 command with rfl | rfl
      · exact taken.1
      · exact taken.2

/-! ### AGENT_NOT_READY (R7) -/

theorem exec_agentNotReady {s : State} (h : TakesEvents s) (p : Position) {r : Nat} (reason : r ≤ 13) (z : Nat) :
    exec (.agentNotReady p.val ⟨r, z⟩) s = .next (attend s ((notReadyEvent r p (raised s)).clockOut z)) :=
  event_agentEvent h p _ (notReadyEvent r) z (decide_eq_true reason)

/-- A record free of a call that is not NOT_READY already takes the event. -/
theorem notReadyEvent_taken {s : State} {p : Position} (r : Nat)
    (busy : (s.agent p).state.available = true ∨ (s.agent p).state.work.isSome = true) :
    notReadyEvent r p s = (enters p (.notReady r) (windUp p s)).answer .taken := by
  rw [← enter_enters p (.notReady r) (windUp p s) rfl rfl]
  unfold notReadyEvent
  cases hst : (s.agent p).state <;> simp_all [AgentState.available, AgentState.work]

theorem notReadyEvent_refused {s : State} {p : Position} (r : Nat)
    (other : (s.agent p).state.available = false ∧ (s.agent p).state.work = none ∧ (s.agent p).state.alertingNow = false) :
    notReadyEvent r p s = s.answer .refusedState := by
  unfold notReadyEvent
  cases hst : (s.agent p).state <;> simp_all [AgentState.available, AgentState.work, AgentState.alertingNow]

theorem notReadyEvent_of_alerting {s : State} {p : Position} {since d : Nat} {b : Binding} (r : Nat)
    (alerting : (s.agent p).state = .alerting since b d) : notReadyEvent r p s =
      if s.free < releaseNeed b then s.answer .refusedFull else (releaseAlert p b r s).answer .taken := by
  simp only [notReadyEvent, alerting]

/-- Settles O12, by the state of the record. -/
theorem notReadyTakesTheReason : Obligations.NotReadyTakesTheReason := by
  intro s p r z h reason
  have taken {u : State} (left : windUp p s = u)
      (busy : (s.agent p).state.available = true ∨ (s.agent p).state.work.isSome = true) :
      exec (.agentNotReady p.val ⟨r, z⟩) s =
        .next (attend s (answered (enters p (.notReady r) u) (clockedOut z [0]))) := by
    rw [exec_agentNotReady h p reason, notReadyEvent_taken (s := raised s) r busy, taken_clockOut, windUp_raised, left]
    rfl
  have refused (other : (s.agent p).state.available = false ∧ (s.agent p).state.work = none ∧
      (s.agent p).state.alertingNow = false) :
      exec (.agentNotReady p.val ⟨r, z⟩) s = .next (answered s (clockedOut z [1])) := by
    rw [exec_agentNotReady h p reason, notReadyEvent_refused (s := raised s) r other, refusedState_clockOut,
      attend_answered]
  cases hst : (s.agent p).state with
  | ready => exact taken (windUp_of_idle (by rw [hst]; rfl) (by simp [hst])) (.inl (by rw [hst]; rfl))
  | claiming => exact taken (windUp_of_claiming hst) (.inl (by rw [hst]; rfl))
  | wrap | wrapOver => exact taken (windUp_of_work (by rw [hst]; rfl)) (.inr (by rw [hst]; rfl))
  | notReady | loggedOut | talking => exact refused (by rw [hst]; exact ⟨rfl, rfl, rfl⟩)
  | alerting since b d =>
    have event := exec_agentNotReady h p reason z
    rw [notReadyEvent_of_alerting (s := raised s) r hst] at event
    dsimp only
    by_cases full : s.free < (if b.isLocal = true then 2 else 1)
    · have short : (raised s).free < releaseNeed b := full
      rw [if_pos short] at event
      rw [if_pos full, event]
      exact congrArg Host.Outcome.next (attend_answered s (clockedOut z [3]))
    · have room : ¬ (raised s).free < releaseNeed b := full
      rw [if_neg room, taken_clockOut] at event
      rw [if_neg full, event]

/-! ### AGENT_ANSWER (R8, R155) -/

/-- The record is TALKING on the binding, with one more call answered (R8). -/
def answersAlert (p : Position) (b : Binding) (s : State) : State :=
  { enters p (.talking b) s with
    agents := alter s.agents p fun a =>
      { a with
        state := .talking b, talkS := 0, changed := true, deferred := false
        counts := { a.counts with answered := min 65535 (a.counts.answered + 1) } } }

theorem talk_answersAlert (p : Position) (b : Binding) (s : State) : talk p b s = answersAlert p b s := by
  simp only [talk, enter_enters p (.talking b) s rfl rfl, State.alterAgent, enters, alter_alter, count1_eq_min,
    answersAlert]

theorem exec_agentAnswer {s : State} (h : TakesEvents s) (p : Position) (z : Nat) :
    exec (.agentAnswer ⟨p.val, z⟩) s = .next (attend s ((answerEvent p (raised s)).clockOut z)) :=
  event_agentEvent h p noFields answerEvent z rfl

theorem answerBound_local {s : State} {p : Position} {b : Binding} (isLocal : b.isLocal = true) :
    answerBound p b s = if (s.alertedCall p b).isSome = true then connect b.ref.slot s else s := by
  simp only [answerBound, isLocal, if_true]
  cases s.alertedCall p b <;> rfl

theorem answerBound_remote {s : State} {p : Position} {b : Binding} (remote : b.isLocal = false) :
    answerBound p b s = (groupCounts b.group (fun n => { n with takenFromPeers := min 65535 (n.takenFromPeers + 1) })
      s).reply b.ref.home (.answered b.ref p) := by
  simp only [answerBound, remote, Bool.false_eq_true, if_false, countTakenFromPeers_counts]

theorem answerEvent_of_alerting {s : State} {p : Position} {since d : Nat} {b : Binding}
    (alerting : (s.agent p).state = .alerting since b d) :
    answerEvent p s = (serveWaiters 33 (answerBound p b (answersAlert p b s))).answer .taken := by
  simp only [answerEvent, alerting, serveRoom_eq, talk_answersAlert]

theorem answerEvent_of_talking {s : State} {p : Position} {b : Binding} (talking : (s.agent p).state = .talking b) :
    answerEvent p s = s.answer .taken := by
  simp only [answerEvent, talking]

theorem answerEvent_refused {s : State} {p : Position} (unbound : (s.agent p).state.binding = none) :
    answerEvent p s = s.answer .refusedState := by
  unfold answerEvent
  cases hst : (s.agent p).state <;> simp_all [AgentState.binding]

/-- Settles O13, by the state of the record and the side of its binding. -/
theorem answerConnectsTheCall : Obligations.AnswerConnectsTheCall := by
  intro s p z h
  refine ⟨fun b => answersAlert p b (raised s), fun _ => rfl, ?_⟩
  have refused (unbound : (s.agent p).state.binding = none) :
      exec (.agentAnswer ⟨p.val, z⟩) s = .next (answered s (clockedOut z [1])) := by
    rw [exec_agentAnswer h, answerEvent_refused (s := raised s) unbound, refusedState_clockOut, attend_answered]
  cases hst : (s.agent p).state with
  | loggedOut | notReady | ready | claiming | wrap | wrapOver => exact refused (by rw [hst]; rfl)
  | talking =>
    rw [exec_agentAnswer h, answerEvent_of_talking (s := raised s) hst, taken_clockOut, raised_drive, attend_answered]
  | alerting since b d =>
    dsimp only
    rw [exec_agentAnswer h, answerEvent_of_alerting (s := raised s) hst, taken_clockOut]
    cases side : b.isLocal with
    | true =>
      rw [if_pos rfl, answerBound_local side]
      rfl
    | false =>
      rw [if_neg Bool.false_ne_true, answerBound_remote side]
      rfl

/-! ### TRUNK_ANSWERED (R14, R33) -/

theorem exec_trunkAnswered {s : State} (rises : NoRestart s) (t : Trunk) (z : Nat) :
    exec (.trunkAnswered ⟨t, z⟩) s = .next (attend s ((answeredEvent t (raised s)).clockOut z)) :=
  event_shelfEvent rises z (answeredEvent t)

theorem answeredEvent_unheld {s : State} {t : Trunk} (serving : s.outOfService = false) (unheld : s.byTrunk t = none) :
    answeredEvent t s = s.answer .refusedState := by
  simp [answeredEvent, serving, unheld]

theorem answeredEvent_held {s : State} {t : Trunk} {c : Slot} {k : Call} (serving : s.outOfService = false)
    (held : Holds s t c k) : answeredEvent t s = answerCall c k s := by
  have ⟨occupied, _, _⟩ := held
  simp [answeredEvent, serving, byTrunk_of_holds held, occupied]

theorem trunkSideAnswer_applied {s : State} {c : Slot} {p : Position} {since d : Nat} {b : Binding}
    (alerting : (s.agent p).state = .alerting since b d) (isLocal : b.isLocal = true) (ref : s.refOf c = some b.ref) :
    trunkSideAnswer c p s = answersAlert p b s := by
  simp only [trunkSideAnswer, alerting, if_pos (And.intro isLocal ref), talk_answersAlert]

theorem trunkSideAnswer_refused {s : State} {c : Slot} {p : Position} (other : ∀ since b d,
    (s.agent p).state = .alerting since b d → ¬ (b.isLocal = true ∧ s.refOf c = some b.ref)) :
    trunkSideAnswer c p s = s := by
  unfold trunkSideAnswer
  split
  · next since b d alerting => rw [if_neg (other since b d alerting)]
  all_goals rfl

/-- Settles O19, by the state of the record that holds the trunk. -/
theorem trunkAnsweredConnectsTheCall : Obligations.TrunkAnsweredConnectsTheCall := by
  intro s t z ⟨inService, rises⟩
  have serving : (raised s).outOfService = false := inService
  refine ⟨fun unheld => ?_, fun c k held => ?_⟩
  · rw [exec_trunkAnswered rises, answeredEvent_unheld serving ((byTrunk_eq_none_iff s t).2 unheld),
      refusedState_clockOut, attend_answered]
  have taken : exec (.trunkAnswered ⟨t, z⟩) s = .next (attend s ((answerCall c k (raised s)).clockOut z)) := by
    rw [exec_trunkAnswered rises, answeredEvent_held serving (s := raised s) held]
  cases hst : k.state with
  | waiting | offered =>
    simp only [taken, answerCall, hst, refusedState_clockOut, attend_answered]
  | connected =>
    simp only [taken, answerCall, hst, taken_clockOut, raised_drive, attend_answered]
  | alertingRemote =>
    simp only [taken, answerCall, hst, taken_clockOut, serveRoom_eq]
  | alertingLocal p =>
    refine ⟨fun since b d alerting isLocal ref => ?_, fun other => ?_⟩
    · rw [taken]
      simp only [answerCall, hst, taken_clockOut, serveRoom_eq,
        trunkSideAnswer_applied (s := raised s) alerting isLocal ref]
      rfl
    · rw [taken]
      simp only [answerCall, hst, taken_clockOut, serveRoom_eq, trunkSideAnswer_refused (s := raised s) other]

end Sys2Proof.Machine
end

section
/-! PROOFS of the call deadlines, the wrap deadlines and the second boundaries (R18, R19, R21, R22, R41, R43, R44, R113). -/

namespace Sys2Proof.Machine

/-! ### Diverts (R43, R44) -/

theorem countDiverted_counts (g : Group) (s : State) :
    countDiverted g s = groupCounts g (fun n => { n with diverted := min 65535 (n.diverted + 1) }) s := by
  simp only [countDiverted, count1_eq_min]
  rfl

/-- The call has been diverted: DIVERT is placed, the call is counted and its record freed (R44). -/
def diverted (c : Slot) (k : Call) (code : Byte) (s : State) : State :=
  freeCall c (groupCounts k.group (fun n => { n with diverted := min 65535 (n.diverted + 1) })
    (placed [.divert k.trunk code] s))

theorem takeDivert_of_room {s : State} {c : Slot} {k : Call} (held : s.callAt c = some k) (room : 0 < s.free) :
    takeDivert c s = diverted c k (s.groupRec k.group).divertCode s := by
  simp only [takeDivert, held, place_placed _ room, countDiverted_counts]
  rfl

theorem callAt_callBecomesDeferred {s : State} {c : Slot} {k : Call} (held : s.callAt c = some k) (b : Bool)
    (f : Call → Call) : (callBecomesDeferred c b f s).callAt c = some (f k) := by
  have record : (callBecomesDeferred c b f s).callAt c = (s.callAt c).map f :=
    congrArg CallSlot.call (alter_get_self s.calls c fun r => { r with deferred := b, call := r.call.map f })
  rw [record, held]
  rfl

theorem callAt_callBecomes {s : State} {c : Slot} {k : Call} (held : s.callAt c = some k) (f : Call → Call) :
    (callBecomes c f s).callAt c = some (f k) := by
  have record : (callBecomes c f s).callAt c = (s.callAt c).map f :=
    congrArg CallSlot.call (alter_get_self s.calls c fun r => { r with call := r.call.map f })
  rw [record, held]
  rfl

/-- The call's divert is pending (R43). -/
def divertPends (k : Call) : Call := { k with divertPending := true }

section
variable {s : State} {c : Slot} {k : Call}

theorem maxWaitReached_of_marked (marked : k.state ≠ .waiting) :
    maxWaitReached c k s = callBecomes c divertPends s := if_neg marked

theorem maxWaitReached_of_waiting (waiting : k.state = .waiting) :
    maxWaitReached c k s = divertDue c (callBecomes c divertPends s) := if_pos waiting

theorem divertDue_callBecomes (held : s.callAt c = some k) (f : Call → Call) (trunk : (f k).trunk = k.trunk)
    (group : (f k).group = k.group) : divertDue c (callBecomes c f s) =
      if s.free = 0 then awaited (.divert c) (callBecomesDeferred c false f s)
      else diverted c k (s.groupRec k.group).divertCode (callBecomesDeferred c false f s) := by
  have free : (callBecomesDeferred c false f s).free = s.free := rfl
  have record : (callBecomesDeferred c false f s).groupRec k.group = s.groupRec k.group := rfl
  simp only [divertDue, deferCall_callBecomes, free]
  by_cases full : s.free = 0
  · rw [if_neg (by omega), if_pos full, await_awaited]
  · rw [if_pos (by omega), if_neg full, takeDivert_of_room (callAt_callBecomesDeferred held false f) (by rw [free]; omega)]
    simp only [diverted, trunk, group, record]

end

/-! ### The deadline commands of a call -/

section
variable {s : State} {c : Slot} {k : Call}

/-- Whether a tier deadline raises the tier now (R41). -/
abbrev TierDue (s : State) (t : TierStep) (k : Call) : Prop :=
  k.state ≠ .connected ∧ k.arrival + 10 * tierTime (s.groupRec k.group) t ≤ s.now ∧ k.tier < raisedTier t

theorem exec_tierDeadline_due {t : TierStep} (held : s.callAt c = some k) (due : TierDue s t k) :
    exec (.tierDeadline c t) s = .next (attend s (attemptCall c (raiseTier c (raisedTier t) s))) := by
  change execTierDeadline c t s = _
  simp only [execTierDeadline, event_eq, held]
  rw [if_pos due, tierChange]

theorem exec_tierDeadline_undue {t : TierStep} (undue : ∀ k, s.callAt c = some k → ¬ TierDue s t k) :
    exec (.tierDeadline c t) s = .next s := by
  change execTierDeadline c t s = _
  simp only [execTierDeadline, event_eq]
  cases held : s.callAt c with
  | none => exact congrArg Host.Outcome.next (attend_self s)
  | some k =>
    dsimp only
    rw [if_neg (undue k held), attend_self]

/-- Whether a max-wait deadline is reached for the first time (R43). -/
abbrev MaxWaitDue (s : State) (k : Call) : Prop :=
  0 < (s.groupRec k.group).maxWait ∧ k.state ≠ .connected ∧ k.divertPending = false ∧
    k.arrival + 10 * (s.groupRec k.group).maxWait ≤ s.now

theorem exec_maxWaitDeadline_due (held : s.callAt c = some k) (due : MaxWaitDue s k) :
    exec (.maxWaitDeadline c) s = .next (attend s (maxWaitReached c k s)) := by
  change execMaxWaitDeadline c s = _
  simp only [execMaxWaitDeadline, event_eq, held]
  rw [if_pos due]

theorem exec_maxWaitDeadline_undue (held : s.callAt c = some k) (undue : ¬ MaxWaitDue s k) :
    exec (.maxWaitDeadline c) s = .next s := by
  change execMaxWaitDeadline c s = _
  simp only [execMaxWaitDeadline, event_eq, held]
  rw [if_neg undue, attend_self]

theorem exec_divert_taken (held : s.callAt c = some k) (waiting : k.state = .waiting) (pending : k.divertPending = true)
    (room : 0 < s.free) (turn : ¬ waitsBehind s (.divert c)) : exec (.divert c) s =
      .next (attend s (diverted c k (s.groupRec k.group).divertCode (unawaited (.divert c) s))) := by
  change execDivert c s = _
  simp only [execDivert, event_eq, held]
  rw [if_pos ⟨waiting, pending, room, mayServe_of_head turn⟩, unawait_unawaited,
    takeDivert_of_room (s := unawaited (.divert c) s) held room]
  rfl

theorem exec_divert_not (held : s.callAt c = some k)
    (not : ¬ (k.state = .waiting ∧ k.divertPending = true ∧ 0 < s.free) ∨ waitsBehind s (.divert c)) :
    exec (.divert c) s = .next s := by
  have refused : ¬ (k.state = .waiting ∧ k.divertPending = true ∧ 0 < s.free ∧ s.mayServe (.divert c) = true) := by
    rw [mayServe_iff]
    tauto
  change execDivert c s = _
  simp only [execDivert, event_eq, held]
  rw [if_neg refused, attend_self]

end

/-- A change of the calls and of the room-wait list alone leaves the attention line alone (R172). -/
theorem attend_calls (s : State) (calls : Vector CallSlot 64) (waits : List RoomWait) :
    attend s { s with calls, port := { s.port with waits } } = { s with calls, port := { s.port with waits } } :=
  attend_same rfl rfl rfl rfl rfl fun _ => rfl

theorem attend_callBecomes (c : Slot) (f : Call → Call) (s : State) : attend s (callBecomes c f s) = callBecomes c f s :=
  attend_calls s _ s.port.waits

/-- Settles O22. -/
theorem callDeadlinesAct : Obligations.CallDeadlinesAct := by
  refine ⟨fun s c t => ⟨fun k held unconnected reached below => ?_, fun undue => ?_⟩,
    fun s c k held => ⟨fun u => diverted c k (s.groupRec k.group).divertCode u, fun _ => rfl,
      fun limit reached fresh unconnected => ?_, fun undue => ?_, exec_divert_taken held, exec_divert_not held⟩⟩
  · refine ⟨raiseTier c (raisedTier t) s, rfl, fun waiting fresh => ?_, fun closed => ?_⟩
    · exact exec_tierDeadline_due held ⟨unconnected, reached, below⟩
    · have raisedHeld := callAt_callBecomes held fun k => { k with tier := raisedTier t, declined := noStations }
      have notSelectable : (raiseTier c (raisedTier t) s).selectable c = none := by
        refine (selectable_eq_none_iff _ c).2 fun j occupied => ?_
        cases raisedHeld.symm.trans occupied
        simpa [imp_iff_not_or] using closed
      rw [exec_tierDeadline_due held ⟨unconnected, reached, below⟩, attemptCall_of_closed notSelectable]
      exact congrArg Host.Outcome.next (attend_callBecomes c _ s)
  · refine exec_tierDeadline_undue fun k held ⟨unconnected, reached, below⟩ => ?_
    rcases undue k held with connected | high | early
    · exact unconnected connected
    · exact below.not_ge high
    · exact early.not_ge reached
  · have due := exec_maxWaitDeadline_due held ⟨limit, unconnected, fresh, reached⟩
    refine ⟨fun marked => ?_, fun waiting => ?_⟩
    · rw [due, maxWaitReached_of_marked marked]
      exact congrArg Host.Outcome.next (attend_callBecomes c _ s)
    · rw [due, maxWaitReached_of_waiting waiting, divertDue_callBecomes held divertPends rfl rfl]
      by_cases full : s.free = 0
      · rw [if_pos full, if_pos full]
        exact congrArg Host.Outcome.next (attend_calls s _ _)
      · rw [if_neg full, if_neg full]
        rfl
  · refine exec_maxWaitDeadline_undue held fun ⟨limit, unconnected, fresh, reached⟩ => ?_
    rcases undue with noLimit | early | pending | connected
    · exact limit.ne' noLimit
    · exact early.not_ge reached
    · exact Bool.false_ne_true (fresh.symm.trans pending)
    · exact unconnected connected

/-! ### The wrap deadlines (R18, R19) -/

/-- Settles O23, by the state of the record and the deadline. -/
theorem wrapDeadlinesEndTheWrap : Obligations.WrapDeadlinesEndTheWrap := by
  intro s p
  have expiry : exec (.wrapExpiry p) s = execWrapExpiry p s := rfl
  have grace : exec (.graceDeadline p) s = execGraceDeadline p s := rfl
  refine ⟨fun w e wrap => ⟨fun early => ?_, fun reached auto => ?_, fun reached manual => ?_⟩, fun w t over' => ?_,
    fun noWrap => ?_, fun noWrapOver => ?_⟩
  · simp only [expiry, execWrapExpiry, event_eq, wrap, if_neg (Nat.not_le.2 early), attend_self]
  · simp only [expiry, execWrapExpiry, event_eq, wrap, if_pos reached, auto, if_true, completeWrap_completed,
      becomeReady_wrapCompleted]
  · simp only [expiry, execWrapExpiry, event_eq, wrap, if_pos reached, manual, Bool.false_eq_true, if_false,
      enter_enters p (.wrapOver w s.now) s rfl rfl]
  · simp only [grace, execGraceDeadline, event_eq, over', completeWrap_completed,
      enter_enters p (.notReady 14) _ rfl rfl]
    split
    · rfl
    · rw [attend_self]
  · rw [expiry, execWrapExpiry, event_eq]
    cases hst : (s.agent p).state with
    | wrap w e => exact absurd hst (noWrap w e)
    | _ => exact congrArg Host.Outcome.next (attend_self s)
  · rw [grace, execGraceDeadline, event_eq]
    cases hst : (s.agent p).state with
    | wrapOver w t => exact absurd hst (noWrapOver w t)
    | _ => exact congrArg Host.Outcome.next (attend_self s)

/-! ### The second boundaries (R21, R22) -/

theorem credit_creditOf (a : Agent) : a.credit = creditOf a := by
  unfold Agent.credit creditOf
  cases a.state <;> simp only [count1_eq_min]

theorem creditOf_changed (a : Agent) : (creditOf a).changed = a.changed := by
  unfold creditOf
  cases a.state <;> rfl

/-- Crediting the records and counting the time leave the attention line alone (R172). -/
theorem attend_credited (s : State) (f : Agent → Agent) (keeps : ∀ a, (f a).changed = a.changed) (secondsDue count : Nat) :
    attend s { s with
      agents := Vector.ofFn fun p => f s.agents[p], time := { s.time with secondsDue, windowCount := count } } =
    { s with agents := Vector.ofFn fun p => f s.agents[p], time := { s.time with secondsDue, windowCount := count } } := by
  refine attend_same rfl rfl rfl rfl rfl fun p => ?_
  have record : (Vector.ofFn fun p => f s.agents[p])[p] = f s.agents[p] := by simp
  exact (congrArg Agent.changed record).trans (keeps s.agents[p])

theorem secondEvent_counts {s : State} (short : s.time.windowCount + 1 ≠ s.conf.windowHalf) : secondEvent s = { s with
    agents := Vector.ofFn fun p => creditOf s.agents[p]
    time := { s.time with windowCount := s.time.windowCount + 1 } } := by
  rw [secondEvent, if_neg short, funext credit_creditOf]
  rfl

theorem secondEvent_rolls {s : State} (half : s.time.windowCount + 1 = s.conf.windowHalf) : secondEvent s = { s with
    agents := Vector.ofFn fun p => (creditOf s.agents[p]).roll, time := { s.time with windowCount := 0 } } := by
  have rolls : alterAll (alterAll s.agents creditOf) Agent.roll = Vector.ofFn fun p => (creditOf s.agents[p]).roll := by
    ext i hi
    simp
  rw [secondEvent, if_pos half, funext credit_creditOf]
  exact congrArg (fun agents => { s with agents, time := { s.time with windowCount := 0 } }) rolls

theorem takeSecond_counts {s : State} (short : s.time.windowCount + 1 ≠ s.conf.windowHalf) : takeSecond s = { s with
    agents := Vector.ofFn fun p => creditOf s.agents[p]
    time := { s.time with secondsDue := s.time.secondsDue - 1, windowCount := s.time.windowCount + 1 } } :=
  secondEvent_counts (s := s.modTime fun t => { t with secondsDue := t.secondsDue - 1 }) short

theorem takeSecond_rolls {s : State} (half : s.time.windowCount + 1 = s.conf.windowHalf) : takeSecond s = { s with
    agents := Vector.ofFn fun p => (creditOf s.agents[p]).roll
    time := { s.time with secondsDue := s.time.secondsDue - 1, windowCount := 0 } } :=
  secondEvent_rolls (s := s.modTime fun t => { t with secondsDue := t.secondsDue - 1 }) half

/-- Settles O24, by whether a second is declared and whether it ends a window half. -/
theorem secondBoundaryCreditsEveryRecord : Obligations.SecondBoundaryCreditsEveryRecord := by
  intro s
  have second : exec .secondBoundary s = .next (attend s (if 0 < s.time.secondsDue then takeSecond s else s)) := rfl
  have half : exec .windowHalfBoundary s = .next (attend s
      (if 0 < s.time.secondsDue ∧ s.time.windowCount + 1 = s.conf.windowHalf then takeSecond s else s)) := rfl
  refine ⟨fun noneDue => ?_, fun due short => ?_, fun due reached => ?_⟩
  · rw [second, half, if_neg (by omega), if_neg (by omega), attend_self]
    exact ⟨rfl, rfl⟩
  · rw [second, half, if_pos due, if_neg (fun both => short both.2), attend_self, takeSecond_counts short,
      attend_credited s creditOf creditOf_changed]
    exact ⟨rfl, rfl⟩
  · rw [second, half, if_pos due, if_pos ⟨due, reached⟩, takeSecond_rolls reached,
      attend_credited s (fun a => (creditOf a).roll) creditOf_changed]
    exact ⟨rfl, rfl⟩

end Sys2Proof.Machine
end

section
/-! PROOFS of the Timebase and of the Summary Builder's ladder (R113 to R115, R145). -/

namespace Sys2Proof.Machine

/-! ### Frames (R113 to R115) -/

theorem beginDrive_eq (s : State) : beginDrive s = { s with highway := Vector.ofFn fun i : Fin 32 =>
    if s.outOfService = false ∧ s.time.syncPresent = true ∧ i.val ≤ 16 then some s.conf.silence else none } := by
  have slot (i : Fin 32) : (if (s.driving && decide (i.val ≤ 16)) = true then some s.silence else none) =
      if s.outOfService = false ∧ s.time.syncPresent = true ∧ i.val ≤ 16 then some s.conf.silence else none := by
    simp [State.driving, State.silence, and_assoc]
  exact congrArg (fun highway => { s with highway }) (congrArg Vector.ofFn (funext slot))

/-- The frame count after a frame: the 800th returns it to 0 and declares a decisecond while the Timebase runs (R113). -/
def framesAfter (tb : Timebase) : Timebase :=
  if tb.frames + 1 = 800 then { tb with frames := 0, dsDue := if tb.running = true then tb.dsDue + 1 else tb.dsDue }
  else { tb with frames := tb.frames + 1 }

theorem framesAfter_kept (tb : Timebase) : (framesAfter tb).syncPresent = tb.syncPresent ∧
    (framesAfter tb).clockLoss = tb.clockLoss := by
  unfold framesAfter
  split <;> exact ⟨rfl, rfl⟩

/-- A frame of the Timebase `tb` has been taken: counted, the streams due, and the slots at the frame's beginning. -/
def frameTaken (s : State) (tb : Timebase) : State :=
  { s with
    time := framesAfter tb
    clips := { s.clips with frameCursor := 0 }
    highway := Vector.ofFn fun i : Fin 32 =>
      if s.outOfService = false ∧ tb.syncPresent = true ∧ i.val ≤ 16 then some s.conf.silence else none }

theorem takeFrameCount_eq (s : State) (tb : Timebase) : takeFrameCount { s with time := tb } = frameTaken s tb := by
  obtain ⟨sync, -⟩ := framesAfter_kept tb
  have begun : takeFrameCount { s with time := tb } =
      beginDrive { s with time := framesAfter tb, clips := { s.clips with frameCursor := 0 } } := rfl
  rw [begun, beginDrive_eq]
  dsimp only
  rw [sync]
  rfl

theorem attend_frameTaken {s : State} {tb : Timebase} (loss : tb.clockLoss = s.time.clockLoss) :
    attend s (frameTaken s tb) = frameTaken s tb :=
  attend_same rfl ((framesAfter_kept tb).2.trans loss) rfl rfl rfl fun _ => rfl

theorem syncReturn_eq (s : State) : syncReturn s = frameTaken s { s.time with syncPresent := true } :=
  takeFrameCount_eq s { s.time with syncPresent := true }

/-- Settles O25. -/
theorem framesAreCounted : Obligations.FramesAreCounted := by
  intro s
  have returns : attend s (syncReturn s) = frameTaken s { s.time with syncPresent := true } := by
    rw [syncReturn_eq]
    exact attend_frameTaken rfl
  have frame : takeFrameCount s = frameTaken s s.time := takeFrameCount_eq s s.time
  have highway : exec .highwayFrame s =
      .next (attend s (if s.time.syncPresent = true then takeFrameCount s else syncReturn s)) := rfl
  have fallback : exec .fallbackFrame s =
      .next (attend s (if s.time.syncPresent = true then s else takeFrameCount s)) := rfl
  refine ⟨frameTaken s, fun _ => rfl, ?_, congrArg Host.Outcome.next returns, fun sync => ?_, fun none => ?_, ?_⟩
  · rw [highway]
    split
    · next sync =>
      have same : { s.time with syncPresent := true } = s.time := by rw [← sync]
      rw [frame, same, attend_frameTaken rfl]
    · rw [returns]
  · rw [fallback, if_pos sync, attend_self]
  · rw [fallback, if_neg (by rw [none]; exact Bool.false_ne_true), frame, attend_frameTaken rfl]
  · have event : exec .syncLost s =
        .next (attend s (beginDrive { s with time := { s.time with syncPresent := false, clockLoss := true } })) := rfl
    have dark : (Vector.ofFn fun i : Fin 32 => if s.outOfService = false ∧ false = true ∧ i.val ≤ 16 then
        some s.conf.silence else none) = Vector.replicate 32 none := by
      ext i hi
      simp
    rw [event, beginDrive_eq]
    exact congrArg (fun highway => Host.Outcome.next (attend s { s with
      time := { s.time with syncPresent := false, clockLoss := true }, highway })) dark

/-! ### The ladder (R145) -/

theorem downshift_downshifted (s : State) : Downshifted s (downshift s) := by
  refine ⟨fun unshifted => ?_, fun h hold due => ⟨fun brisk => ?_, fun easy => ?_⟩⟩
  · unfold downshift
    split
    · next due =>
      rcases unshifted with early | slow
      · cases hold : s.builder.hold with
        | none => simp [reached, hold] at due
        | some h => exact absurd (early h hold) (Nat.not_lt.2 (by simpa [reached, hold] using due))
      · simp only [slow]
    · rfl
  · simp only [downshift, reached, hold, decide_eq_true due, if_true, brisk]
    rfl
  · simp only [downshift, reached, hold, decide_eq_true due, if_true, easy]
    rfl

theorem placeSummary_placed (s : State) : placeSummary s = summaryPlaced s := rfl

theorem periodStep_taken (s : State) : PeriodTaken s (periodStep s) := by
  refine ⟨fun e period due => ?_, fun early => ?_⟩
  · simp only [periodStep, reached, period, decide_eq_true due, if_true, placeSummary_placed]
    rfl
  · unfold periodStep
    split
    · next due =>
      cases period : s.builder.period with
      | none => simp [reached, period] at due
      | some e => exact absurd (early e period) (Nat.not_lt.2 (by simpa [reached, period] using due))
    · rfl

theorem placedBefore_iff (s : State) : s.placedBefore = true ↔ ∀ e, s.builder.lastPlacement = some e → e < s.now := by
  unfold State.placedBefore
  cases s.builder.lastPlacement <;> simp

/-- A command that leaves the records, the peers and the Shelf Port leaves the attention line (R172, R175). -/
theorem attend_quiet {s t : State} (loss : t.time.clockLoss = s.time.clockLoss) (agents : t.agents = s.agents)
    (peers : t.peers = s.peers) (port : t.port = s.port) : attend s t = t :=
  attend_same (by rw [port]) loss (by rw [port]) (by rw [peers]) (by rw [port])
    fun p => by rw [State.agent, State.agent, agents]

/-- What a declared decisecond makes of the Timebase (R113). -/
theorem advance_eq (tb : Timebase) : tb.advance = { tb with
    ds := if tb.ds < 4294967295 then tb.ds + 1 else tb.ds
    dsDue := tb.dsDue - 1
    secondsDue := if tb.ds < 4294967295 ∧ (tb.ds + 1) % 10 = 0 then tb.secondsDue + 1 else tb.secondsDue } := by
  have limit : lastDecisecond = 4294967295 := rfl
  rw [Timebase.advance, limit]
  by_cases before : tb.ds < 4294967295
  · simp only [before, true_and, if_true]
  · simp only [before, false_and, if_false]

theorem ladder_significant {s : State} (builds : s.building = true) (differs : significantChange (downshift s) = true)
    (later : (downshift s).placedBefore = true) : ladder s = startBrisk (summaryPlaced (downshift s)) := by
  simp only [ladder, builds, if_true, differs, later, Bool.and_self, placeSummary_placed]

theorem ladder_other {s : State} (builds : s.building = true)
    (other : ¬ (significantChange (downshift s) = true ∧ (downshift s).placedBefore = true)) :
    ladder s = periodStep (downshift s) := by
  rw [← Bool.and_eq_true] at other
  simp only [ladder, builds, if_true]
  rw [if_neg other]

/-- Settles O26: the steps of the ladder one by one, then the two deadlines that take them alone. -/
theorem decisecondTakesTheLadder : Obligations.DecisecondTakesTheLadder := by
  have decisecond (s : State) : exec .decisecond s =
      .next (attend s (if 0 < s.time.dsDue then ladder (s.modTime Timebase.advance) else s)) := rfl
  refine ⟨fun s none => ?_, fun s due => ?_, fun s idle => ?_, fun s builds => ?_⟩
  · rw [decisecond, if_neg (by omega), attend_self]
  · have quiet : attend s (ladder (s.modTime Timebase.advance)) = ladder (s.modTime Timebase.advance) := by
      refine attend_quiet ?_ (by simp) (by simp) (by simp)
      have loss : (s.modTime Timebase.advance).time.clockLoss = s.time.clockLoss :=
        (congrArg Timebase.clockLoss (advance_eq s.time) :)
      simpa using loss
    rw [decisecond, if_pos due, quiet]
    refine ⟨s.modTime Timebase.advance, congrArg (fun time => { s with time }) (advance_eq s.time), fun idle => ?_,
      fun builds => ⟨downshift (s.modTime Timebase.advance), _, downshift_downshifted _, rfl, fun differs later => ?_,
        fun other => ?_⟩⟩
    · have rests : ¬ (s.modTime Timebase.advance).building = true := by
        rw [Bool.not_eq_true]
        exact idle
      rw [ladder, if_neg rests]
    · exact ladder_significant builds differs ((placedBefore_iff _).2 later)
    · rw [ladder_other (s := s.modTime Timebase.advance) builds (fun both => other ⟨both.1, (placedBefore_iff _).1 both.2⟩)]
      exact periodStep_taken _
  · have hold : exec .holdDeadline s = .next (attend s (if s.building = true then downshift s else s)) := rfl
    have period : exec .periodDeadline s = .next (attend s (if s.building = true then periodStep (downshift s) else s)) := rfl
    have rests : ¬ s.building = true := by rw [Bool.not_eq_true]; exact idle
    rw [hold, period, if_neg rests, if_neg rests, attend_self]
    exact ⟨rfl, rfl⟩
  · refine ⟨downshift s, periodStep (downshift s), downshift_downshifted s, ?_, periodStep_taken _, ?_⟩
    · have hold : exec .holdDeadline s = .next (attend s (if s.building = true then downshift s else s)) := rfl
      rw [hold, if_pos builds, attend_quiet (by simp) (by simp) (by simp) (by simp)]
    · have period : exec .periodDeadline s =
          .next (attend s (if s.building = true then periodStep (downshift s) else s)) := rfl
      rw [period, if_pos builds, attend_quiet (by simp) (by simp) (by simp) (by simp)]

end Sys2Proof.Machine
end

section
/-! PROOFS of the streams: their output in a frame, the reads that fill them, their starts and stops, and the arbiter
(R104 to R112). -/

namespace Sys2Proof.Machine

/-! ### The sample of a frame (R110, R112) -/

/-- The stream's turn in the frame has been taken: it has become `x`, and its sample is in its slot where that is driven. -/
def streamSent (n : StreamId) (x : Stream) (b : Byte) (s : State) : State :=
  { s with
    clips := { s.clips with frameCursor := n.val + 1, streams := alter s.clips.streams n fun _ => x }
    highway := if s.outOfService = false ∧ s.time.syncPresent = true then
      alter s.highway ⟨n.val, by omega⟩ fun _ => some b else s.highway }

/-- The arbiter tests when the stream's level has come down to 32 (R107). -/
def fetchIfLow (n : StreamId) (u : State) : State := if (u.stream n).fifo.length = 32 then fetchTest u else u

/-- The state with the stream's turn in the frame taken. -/
def turnTaken (n : StreamId) (s : State) : State := s.modClips fun c => { c with frameCursor := n.val + 1 }

theorem putSample_sent (n : StreamId) (b : Byte) (f : Stream → Stream) (s : State) :
    putSample n b ((turnTaken n s).alterStream n f) = streamSent n (f (s.stream n)) b s := by
  have streams : alter s.clips.streams n f = alter s.clips.streams n fun _ => f (s.stream n) := alter_congr _ _ rfl
  have driven : ((turnTaken n s).alterStream n f).driving = true ↔ s.outOfService = false ∧ s.time.syncPresent = true := by
    change s.driving = true ↔ _
    simp [State.driving]
  unfold putSample streamSent
  by_cases drives : s.outOfService = false ∧ s.time.syncPresent = true
  · rw [if_pos (driven.2 drives), if_pos drives, ← streams]
    rfl
  · rw [if_neg (mt driven.1 drives), if_neg drives, ← streams]
    rfl

theorem streamSent_stream (n : StreamId) (x : Stream) (b : Byte) (s : State) : (streamSent n x b s).stream n = x :=
  alter_get_self ..

theorem attend_streamSent (n : StreamId) (x : Stream) (b : Byte) (s : State) :
    attend s (streamSent n x b s) = streamSent n x b s := attend_quiet rfl rfl rfl rfl

theorem attend_fetchIfLow (n : StreamId) (x : Stream) (b : Byte) (s : State) :
    attend s (fetchIfLow n (streamSent n x b s)) = fetchIfLow n (streamSent n x b s) := by
  unfold fetchIfLow
  split
  · exact attend_quiet (by simp [streamSent]) (by simp [streamSent]) (by simp [streamSent]) (by simp [streamSent])
  · exact attend_streamSent n x b s

section
variable {s : State} {n : StreamId} {p : Playing} {b : Byte} {rest : List Byte}

theorem outputSample_silent (silent : (s.stream n).playing = none ∨ (s.stream n).started = false) :
    outputSample n s = (s, false) := by
  unfold outputSample
  split
  · next playing started _ => simp [playing, started] at silent
  · next playing started _ => simp [playing, started] at silent
  · rfl

theorem outputSample_empty (playing : (s.stream n).playing = some p) (started : (s.stream n).started = true)
    (empty : (s.stream n).fifo = []) : outputSample n s =
      (putSample n s.silence (s.alterStream n fun x => { x with underruns := min 65535 (x.underruns + 1) }), false) := by
  simp only [outputSample, playing, started, empty, count1_eq_min]

theorem outputSample_played (playing : (s.stream n).playing = some p) (started : (s.stream n).started = true)
    (fifo : (s.stream n).fifo = b :: rest) {next : Option Playing} (played : p.played s (s.playlistOf n) = next) :
    outputSample n s =
      (if rest.length = 32 then
        fetchTest (putSample n b (s.alterStream n fun x => { x with playing := next, fifo := rest, started := next.isSome }))
      else putSample n b (s.alterStream n fun x => { x with playing := next, fifo := rest, started := next.isSome }),
      next.isNone) := by
  simp only [outputSample, playing, started, fifo, played]
  rfl

end

/-! ### STREAM_FRAME_OUTPUT (R110, R111) -/

theorem streamVoice_eq {n : StreamId} {v : Voice} (voice : v.val + 4 = n.val) : streamVoice n = some v := by
  have above : 4 ≤ n.val := by omega
  have same : (⟨n.val - 4, by omega⟩ : Voice) = v := Fin.ext (Nat.sub_eq_of_eq_add voice.symm)
  rw [streamVoice, dif_pos above, same]

theorem streamOutput_quiet {s u : State} {n : StreamId} (out : outputSample n (turnTaken n s) = (u, false)) :
    streamOutput n s = u := by
  have taken : s.modClips (fun c => { c with frameCursor := n.val + 1 }) = turnTaken n s := rfl
  simp only [streamOutput, taken, out]

theorem streamOutput_finished {s u : State} {n : StreamId} {v : Voice} (voice : v.val + 4 = n.val)
    (out : outputSample n (turnTaken n s) = (u, true)) : streamOutput n s = clipFinished v u := by
  have taken : s.modClips (fun c => { c with frameCursor := n.val + 1 }) = turnTaken n s := rfl
  simp only [streamOutput, taken, out, streamVoice_eq voice]

section
variable {s : State} {n : StreamId} {p : Playing} {b : Byte} {rest : List Byte}

/-- A sample is played: the stream's play side has become `next`, and the sample is in the slot. -/
theorem outputSample_turn (playing : (s.stream n).playing = some p) (started : (s.stream n).started = true)
    (fifo : (s.stream n).fifo = b :: rest) {next : Option Playing} (played : p.played s (s.playlistOf n) = next) :
    outputSample n (turnTaken n s) = (fetchIfLow n (streamSent n
      { s.stream n with playing := next, fifo := rest, started := next.isSome } b s), next.isNone) := by
  have level := streamSent_stream n { s.stream n with playing := next, fifo := rest, started := next.isSome } b s
  rw [outputSample_played (s := turnTaken n s) playing started fifo played, putSample_sent, fetchIfLow, level]

theorem played_on {playlist : List Nat} (more : 2 ≤ p.samplesLeft) :
    p.played s playlist = some { p with samplesLeft := p.samplesLeft - 1 } := if_neg (by omega)

theorem played_bed {playlist : List Nat} {i j : Nat} (last : p.samplesLeft = 1) (indexes : p.indexes = some (i, j)) :
    p.played s playlist = some { p with
      clip := playlist.getD (nextEntry playlist i) 0, indexes := some (nextEntry playlist i, j)
      samplesLeft := s.clipLength (playlist.getD (nextEntry playlist i) 0) } := by
  simp only [Playing.played, last, Nat.sub_self, if_true, indexes]

theorem played_voice {playlist : List Nat} (last : p.samplesLeft = 1) (indexes : p.indexes = none) :
    p.played s playlist = none := by
  simp only [Playing.played, last, Nat.sub_self, if_true, indexes]

end

theorem exec_streamFrameOutput {s : State} {n : StreamId} (turn : s.clips.frameCursor ≤ n.val) :
    exec (.streamFrameOutput n) s = .next (attend s (streamOutput n s)) := by
  change execStreamFrameOutput n s = _
  rw [execStreamFrameOutput, event_eq, if_pos turn]

/-- Settles O27: no turn, then the output by what the stream has to play. -/
theorem streamsPlayEachFrame : Obligations.StreamsPlayEachFrame := by
  refine fun s n => ⟨fun past => ?_, fun turn => ⟨fun x b => streamSent n x b s, fetchIfLow n, fun _ _ => rfl,
    fun _ => rfl, fun silent => ?_, fun p playing started => ⟨fun empty => ?_, fun b rest fifo => ⟨fun more => ?_,
    fun i j k last indexes entry => ?_, fun v last indexes voice => ?_⟩⟩⟩⟩
  · change execStreamFrameOutput n s = _
    rw [execStreamFrameOutput, event_eq, if_neg (Nat.not_le.2 past), attend_self]
  · rw [exec_streamFrameOutput turn, streamOutput_quiet (outputSample_silent (s := turnTaken n s) silent)]
    exact congrArg Host.Outcome.next (attend_quiet rfl rfl rfl rfl)
  · rw [exec_streamFrameOutput turn,
      streamOutput_quiet (outputSample_empty (s := turnTaken n s) playing started empty), putSample_sent]
    exact congrArg Host.Outcome.next (attend_streamSent n _ _ s)
  · rw [exec_streamFrameOutput turn,
      streamOutput_quiet (outputSample_turn playing started fifo (played_on more)), attend_fetchIfLow]
    simp only [Option.isSome_some, ← started]
  · subst entry
    rw [exec_streamFrameOutput turn,
      streamOutput_quiet (outputSample_turn playing started fifo (played_bed last indexes)), attend_fetchIfLow]
    simp only [Option.isSome_some, ← started]
    rfl
  · rw [exec_streamFrameOutput turn,
      streamOutput_finished voice (outputSample_turn playing started fifo (played_voice last indexes))]
    rfl

/-! ### Reads (R108, R109) -/

theorem receive_playing {x : Stream} {p : Playing} (playing : x.playing = some p) (bytes : List Byte) :
    x.receive bytes = { x with
      fifo := x.fifo ++ bytes
      started := x.started || decide (32 ≤ (x.fifo ++ bytes).length) || decide (p.bytesLeft = 0) } := by
  simp only [Stream.receive, Stream.startsNow, playing, Bool.or_assoc]
  rfl

theorem arriveRead_idle {s : State} (bytes : List Byte) (idle : s.clips.inFlight = none) : arriveRead bytes s = s := by
  simp only [arriveRead, idle]

section
variable {s : State} {r : InFlight} (bytes : List Byte)

theorem arriveRead_kept {p : Playing} (flight : s.clips.inFlight = some r)
    (playing : (s.stream r.stream).playing = some p) (epoch : (s.stream r.stream).epoch = r.epoch) :
    arriveRead bytes s = fetchTest { s with clips := { s.clips with
      inFlight := none
      streams := alter s.clips.streams r.stream fun x =>
        { x with
          fifo := x.fifo ++ bytes.take r.count
          started := x.started || decide (32 ≤ (x.fifo ++ bytes.take r.count).length) ||
            decide (p.bytesLeft = 0) } } } := by
  have keeps : ((s.stream r.stream).playing.isSome && decide ((s.stream r.stream).epoch = r.epoch)) = true := by
    rw [playing, decide_eq_true epoch]
    rfl
  simp only [arriveRead, flight]
  rw [if_pos keeps]
  refine congrArg (fun streams => fetchTest { s with clips := { s.clips with inFlight := none, streams } }) ?_
  exact alter_congr _ _ (receive_playing playing _)

theorem arriveRead_discarded (flight : s.clips.inFlight = some r)
    (other : (s.stream r.stream).playing = none ∨ (s.stream r.stream).epoch ≠ r.epoch) :
    arriveRead bytes s = fetchTest { s with clips := { s.clips with inFlight := none } } := by
  have drops : ¬ ((s.stream r.stream).playing.isSome && decide ((s.stream r.stream).epoch = r.epoch)) = true := by
    rcases other with inactive | later
    · simp [inactive]
    · simp [later]
  simp only [arriveRead, flight]
  rw [if_neg drops]
  rfl

end

theorem attend_fetchTest {s t : State} (loss : t.time.clockLoss = s.time.clockLoss) (agents : t.agents = s.agents)
    (peers : t.peers = s.peers) (port : t.port = s.port) : attend s (fetchTest t) = fetchTest t :=
  attend_quiet (by simp [loss]) (by simp [agents]) (by simp [peers]) (by simp [port])

/-! ### Starts and stops (R105, R106) -/

theorem alterStream_congr {s : State} {n : StreamId} {f g : Stream → Stream} (same : f (s.stream n) = g (s.stream n)) :
    s.alterStream n f = s.alterStream n g :=
  congrArg (fun streams => { s with clips := { s.clips with streams } }) (alter_congr s.clips.streams n same)

theorem alterStream_alterStream (s : State) (n : StreamId) (f g : Stream → Stream) :
    (s.alterStream n f).alterStream n g = s.alterStream n fun x => g (f x) :=
  congrArg (fun streams => { s with clips := { s.clips with streams } }) (alter_alter s.clips.streams n f g)

theorem stopStream_inactive {s : State} {n : StreamId} (inactive : (s.stream n).playing = none) : stopStream n s = s := by
  rw [stopStream, if_neg (by simp [inactive])]

theorem stopStream_active {s : State} {n : StreamId} (active : (s.stream n).playing ≠ none) : stopStream n s =
    s.alterStream n fun _ => ⟨none, [], false, (s.stream n).underruns, (s.stream n).epoch + 1⟩ := by
  rw [stopStream, if_pos (by simpa [Option.isSome_iff_ne_none] using active)]
  exact alterStream_congr rfl

theorem startStream_eq (s : State) (n : StreamId) (clip : Nat) : startStream n clip s = fetchTest (s.alterStream n fun _ =>
    ⟨some ⟨clip, if n.val < 4 then some (0, 0) else none, s.clipStart clip, s.clipLength clip, s.clipLength clip⟩,
      [], false, (s.stream n).underruns, (s.stream n).epoch + if (s.stream n).playing = none then 1 else 2⟩) := by
  unfold startStream
  by_cases inactive : (s.stream n).playing = none
  · rw [stopStream_inactive inactive, if_pos inactive]
    exact congrArg fetchTest (alterStream_congr rfl)
  · rw [stopStream_active inactive, if_neg inactive]
    exact congrArg fetchTest (alterStream_alterStream ..)

/-! ### The arbiter (R107) -/

theorem needsFetch_iff (s : State) (n : StreamId) : (s.stream n).needsFetch = true ↔ NeedsFetch s n := by
  unfold Stream.needsFetch NeedsFetch
  cases (s.stream n).playing with
  | none => simp
  | some p =>
    simp only [Bool.and_eq_true, decide_eq_true_eq]
    simp [readSize]

theorem fetchOrder_getElem? (last : StreamId) {k : Nat} (k_lt : k < 16) {n : StreamId}
    (place : n.val = (last.val + 1 + k) % 16) : (fetchOrder last)[k]? = some n := by
  have entry : Fin.ofNat 16 (last.val + 1 + k) = n := Fin.ext place.symm
  rw [fetchOrder, List.getElem?_map, List.getElem?_range k_lt, Option.map_some, entry]

/-- The first stream in the arbiter's order that needs a fetch is the one found. -/
theorem find?_fetchOrder {s : State} {k : Nat} {n : StreamId} (k_lt : k < 16)
    (place : n.val = (s.clips.lastServed.val + 1 + k) % 16) (needs : NeedsFetch s n)
    (before : ∀ j m, j < k → (m : StreamId).val = (s.clips.lastServed.val + 1 + j) % 16 → ¬ NeedsFetch s m) :
    (fetchOrder s.clips.lastServed).find? (fun n => (s.stream n).needsFetch) = some n := by
  have length : (fetchOrder s.clips.lastServed).length = 16 := by simp [fetchOrder]
  refine List.find?_eq_some_iff_getElem.2 ⟨(needsFetch_iff s n).2 needs, k, by omega, ?_, fun j j_lt => ?_⟩
  · exact (List.getElem?_eq_some_iff.1 (fetchOrder_getElem? _ k_lt place)).2
  · have entry : (fetchOrder s.clips.lastServed)[j]'(by omega) = Fin.ofNat 16 (s.clips.lastServed.val + 1 + j) := by
      simp [fetchOrder]
    rw [entry, Bool.not_eq_true', ← Bool.not_eq_true, needsFetch_iff]
    exact before j _ j_lt rfl

theorem fetchTest_idle {s : State} (idle : s.clips.inFlight ≠ none ∨ s.bus.station = .starting ∨ ∀ n, ¬ NeedsFetch s n) :
    fetchTest s = s := by
  unfold fetchTest
  split
  · rfl
  · next tests =>
    have none : (fetchOrder s.clips.lastServed).find? (fun n => (s.stream n).needsFetch) = none := by
      rw [List.find?_eq_none]
      intro n _
      rw [needsFetch_iff]
      rcases idle with flight | starting | noNeed
      · exact absurd (by simp [Option.isSome_iff_ne_none, flight]) tests
      · exact absurd (by simp [starting]) tests
      · exact noNeed n
    rw [none]

theorem fetchTest_grants {s : State} {n : StreamId} (idle : s.clips.inFlight = none) (running : s.bus.station ≠ .starting)
    (found : (fetchOrder s.clips.lastServed).find? (fun n => (s.stream n).needsFetch) = some n) :
    fetchTest s = grantRead n s := by
  have tests : ¬ (s.clips.inFlight.isSome || decide (s.bus.station = .starting)) = true := by simp [idle, running]
  rw [fetchTest, if_neg tests, found]

/-- The fetch side of a stream after a grant of `count` bytes, a bed going on to the playlist entry `next` (R107, R111). -/
def grantedTo (s : State) (n : StreamId) (p : Playing) (count next : Nat) : Playing :=
  match p.indexes with
  | some (i, _) =>
    if p.bytesLeft = count then
      { p with
        indexes := some (i, next), nextAddr := s.clipStart ((s.playlistOf n).getD next 0)
        bytesLeft := s.clipLength ((s.playlistOf n).getD next 0) }
    else { p with nextAddr := p.nextAddr + count, bytesLeft := p.bytesLeft - count }
  | none => { p with nextAddr := p.nextAddr + count, bytesLeft := p.bytesLeft - count }

/-- The playlist entry a bed's fetch side goes on to. -/
def fetchedNext (s : State) (n : StreamId) (p : Playing) : Nat :=
  match p.indexes with
  | some (_, j) => nextEntry (s.playlistOf n) j
  | none => 0

theorem granted_eq (s : State) (n : StreamId) (p : Playing) : p.granted s (s.playlistOf n) (min 32 p.bytesLeft) =
    grantedTo s n p (min 32 p.bytesLeft) (fetchedNext s n p) := by
  have whole : p.bytesLeft - min 32 p.bytesLeft = 0 ↔ p.bytesLeft = min 32 p.bytesLeft := by omega
  unfold Playing.granted grantedTo fetchedNext
  cases p.indexes with
  | none => rfl
  | some indexes =>
    simp only [whole]

theorem grantRead_eq {s : State} {n : StreamId} {p : Playing} (playing : (s.stream n).playing = some p) :
    grantRead n s = { s with clips := { s.clips with
      lastServed := n
      inFlight := some ⟨n, (s.stream n).epoch, p.nextAddr, min 32 p.bytesLeft⟩
      streams := alter s.clips.streams n fun x =>
        { x with playing := some (grantedTo s n p (min 32 p.bytesLeft) (fetchedNext s n p)) } } } := by
  have size : readSize = 32 := rfl
  simp only [grantRead, playing, size]
  have grants : (s.alterStream n fun x =>
        { x with playing := x.playing.map (Playing.granted s (s.playlistOf n) (min 32 p.bytesLeft)) }) =
      s.alterStream n fun x => { x with playing := some (grantedTo s n p (min 32 p.bytesLeft) (fetchedNext s n p)) } := by
    refine alterStream_congr ?_
    rw [playing, Option.map_some, granted_eq]
  rw [grants]
  rfl

/-- Settles O28. -/
theorem readsFillTheFifosInTurn : Obligations.ReadsFillTheFifosInTurn := by
  have arrives (s : State) (bytes : Vector Byte 32) :
      exec (.readArrives bytes) s = .next (attend s (arriveRead bytes.toList s)) := rfl
  refine ⟨fun s bytes => ⟨fun idle => ?_, fun r flight => ⟨fun p playing epoch => ?_, fun other => ?_⟩⟩,
    fun s n => ⟨fun x => s.alterStream n fun _ => x, fun _ => rfl, stopStream_inactive, stopStream_active,
      startStream_eq s n⟩, fun s => fetchTest_idle, fun s k n p idle running k_lt place needs playing before =>
      ⟨min 32 p.bytesLeft, fetchedNext s n p, rfl, fun i j indexes => ?_, ?_⟩⟩
  · rw [arrives, arriveRead_idle _ idle, attend_self]
  · rw [arrives, arriveRead_kept _ flight playing epoch]
    exact congrArg Host.Outcome.next (attend_fetchTest rfl rfl rfl rfl)
  · rw [arrives, arriveRead_discarded _ flight other]
    exact congrArg Host.Outcome.next (attend_fetchTest rfl rfl rfl rfl)
  · rw [fetchedNext, indexes]
    rfl
  · rw [fetchTest_grants idle running (find?_fetchOrder k_lt place needs before), grantRead_eq playing]
    rfl

end Sys2Proof.Machine
end

section
/-! PROOFS of the reads of a load and of its checks (R176 to R178). First each structural check as a condition on the bytes of
the image; then the fault code as the first check that fails; then the reads. -/

namespace Sys2Proof.Machine

/-! ### The fields of a step -/

theorem stepField_zero (img : List Byte) (n : Nat) : stepField img n 0 = u8 img (722 + 7 * n) := rfl

theorem stepField_one (img : List Byte) (n : Nat) : stepField img n 1 = u8 img (723 + 7 * n) :=
  congrArg (u8 img) (by omega)

theorem stepField_two_add (img : List Byte) (n t : Nat) : stepField img n (2 + t) = u8 img (724 + 7 * n + t) :=
  congrArg (u8 img) (by omega)

theorem branchCount_eq (img : List Byte) (n : Nat) : branchCount img n = max 1 (min 4 (u8 img (723 + 7 * n))) := by
  rw [branchCount, clampTo_eq_nearer (by omega), stepField_one]
  rfl

/-- A check of the steps of one kind fails at a step of that kind in a list (R178). -/
theorem any_listedSteps_kind (img : List Byte) (k : Nat) (fails : Nat → Nat → Nat → Bool) :
    (listedSteps img).any (fun p => decide (stepKind img (stepNo img p.1 p.2) = k) &&
      fails p.1 p.2 (stepNo img p.1 p.2)) = true ↔
      ∃ l i n, StepInList img l i n k ∧ fails l i n = true := by
  simp only [any_listedSteps, Bool.and_eq_true, decide_eq_true_eq]
  constructor
  · rintro ⟨l, i, defined, inside, kind, failed⟩
    exact ⟨l, i, _, ⟨defined, inside, rfl, kind⟩, failed⟩
  · rintro ⟨l, i, n, ⟨defined, inside, rfl, kind⟩, failed⟩
    exact ⟨l, i, defined, inside, kind, failed⟩

theorem any_range_groups (img : List Byte) (fails : Nat → Bool) :
    (List.range 16).any (fun g => groupDefined img g && fails g) = true ↔ ∃ g, GroupDefined img g ∧ fails g = true := by
  simp only [List.any_eq_true, List.mem_range, Bool.and_eq_true]
  constructor
  · rintro ⟨g, small, defined, failed⟩
    exact ⟨g, (groupDefined_iff small).1 defined, failed⟩
  · rintro ⟨g, defined, failed⟩
    exact ⟨g, defined.1, (groupDefined_iff defined.1).2 defined, failed⟩

theorem any_or_iff {α : Type} (l : List α) (p q : α → Bool) :
    l.any (fun x => p x || q x) = true ↔ l.any p = true ∨ l.any q = true := by
  simp [List.any_eq_true, and_or_left, exists_or]

theorem not_listDefined (img : List Byte) (l : Nat) : (!listDefined img l) = true ↔ ¬ ListDefined img l := by
  rw [Bool.not_eq_true', ← Bool.not_eq_true, listDefined_iff]

theorem not_clipPresent (img : List Byte) (c : Nat) : (!clipPresent img c) = true ↔ ¬ ClipPresent img c := by
  rw [Bool.not_eq_true', ← Bool.not_eq_true, clipPresent_iff]

/-! ### The structural checks, one by one (R178) -/

/-- The check of each code, as the load makes it. -/
def structuralCheck (img : List Byte) : Nat → Bool
  | 4 => 14 < u8 img 7
  | 5 => 256 < stepCount img
  | 6 => (List.range 32).any (listFault img)
  | 7 => (List.range (stepCount img)).any (kindFault img)
  | 8 => (List.range 16).any (fun g => groupDefined img g && !listDefined img (u8 img (groupAt g + 32))) ||
      (listedSteps img).any fun p => nestFault img (stepNo img p.1 p.2)
  | 9 => (List.range 16).any (overflowFault img)
  | 10 => (listedSteps img).any (fun p => stepClipFault img (stepNo img p.1 p.2)) || (List.range 4).any (playClipFault img)
  | 11 => (listedSteps img).any (fun p => stepKind img (stepNo img p.1 p.2) = 1 &&
        3 < stepField img (stepNo img p.1 p.2) 0) ||
      (List.range 16).any fun g => groupDefined img g && 3 < u8 img (groupAt g + 33)
  | 12 => (List.range 4).any fun b => playCount img b = 0 || 8 < playCount img b
  | 13 => (List.range 128).any (clipFault img)
  | 14 => (listedSteps img).any fun p => targetFault img p.1 p.2
  | 15 => (listedSteps img).any fun p => doubleNestFault img (stepNo img p.1 p.2)
  | 16 => (listedSteps img).any fun p => repeatFault img p.1 p.2
  | 17 => (List.range 16).any (thresholdFault img)
  | _ => false

section
variable (img : List Byte)

theorem structuralCheck_six : structuralCheck img 6 = true ↔ Fails img 6 := by
  simp only [structuralCheck, Fails, List.any_eq_true, List.mem_range, listFault, Bool.and_eq_true, Bool.or_eq_true,
    decide_eq_true_eq, listDefined_iff]
  exact exists_congr fun l => and_iff_right_of_imp fun ⟨defined, _⟩ => defined.1

theorem structuralCheck_seven : structuralCheck img 7 = true ↔ Fails img 7 := by
  simp only [structuralCheck, Fails, List.any_eq_true, List.mem_range, kindFault, Bool.and_eq_true, Bool.or_eq_true,
    decide_eq_true_eq, or_assoc]
  simp only [stepField_zero, stepKind, stepCount]

theorem structuralCheck_eight : structuralCheck img 8 = true ↔ Fails img 8 := by
  have nests := any_listedSteps_kind img 7 fun _ _ n => !listDefined img (stepField img n 0)
  have groups := any_range_groups img fun g => !listDefined img (u8 img (groupAt g + 32))
  simp only [not_listDefined, stepField_zero] at nests groups
  rw [structuralCheck, Bool.or_eq_true]
  exact or_congr groups nests

theorem structuralCheck_nine : structuralCheck img 9 = true ↔ Fails img 9 := by
  have undefined (g o : Nat) : (16 ≤ o ∨ (!groupDefined img o) = true ∨ o = g) ↔ ¬ GroupDefined img o ∨ o = g := by
    by_cases small : o < 16
    · have notLarge : ¬ 16 ≤ o := by omega
      simp only [notLarge, false_or, Bool.not_eq_true', ← Bool.not_eq_true, groupDefined_iff small]
    · have large : 16 ≤ o := by omega
      have none : ¬ GroupDefined img o := fun defined => small defined.1
      simp only [large, true_or, none, not_false_eq_true]
  have groups := any_range_groups img fun g => decide (u8 img (groupAt g + 15) ≠ 255) &&
    (decide (16 ≤ u8 img (groupAt g + 15)) || !groupDefined img (u8 img (groupAt g + 15)) ||
      decide (u8 img (groupAt g + 15) = g))
  simp only [Bool.and_eq_true, Bool.or_eq_true, decide_eq_true_eq, or_assoc, undefined] at groups
  have check : structuralCheck img 9 = (List.range 16).any (fun g => groupDefined img g &&
      (decide (u8 img (groupAt g + 15) ≠ 255) && (decide (16 ≤ u8 img (groupAt g + 15)) ||
        !groupDefined img (u8 img (groupAt g + 15)) || decide (u8 img (groupAt g + 15) = g)))) := by
    simp only [← Bool.and_assoc]
    rfl
  rw [check]
  exact groups

theorem structuralCheck_ten : structuralCheck img 10 = true ↔ Fails img 10 := by
  have spoken := any_listedSteps_kind img 2 fun _ _ n => !clipPresent img (stepField img n 0)
  have digits := any_listedSteps_kind img 3 fun _ _ n =>
    (List.range 10).any fun d => !clipPresent img (stepField img n 1 + d)
  have played : (List.range 4).any (playClipFault img) = true ↔ ∃ b i, b < 4 ∧ i < min 8 (u8 img (3281 + 9 * b)) ∧
      ¬ ClipPresent img (u8 img (3282 + 9 * b + i)) := by
    simp only [List.any_eq_true, List.mem_range, playClipFault, not_clipPresent, exists_and_left]
    rfl
  have steps : (listedSteps img).any (fun p => stepClipFault img (stepNo img p.1 p.2)) = true ↔ _ ∨ _ :=
    (any_or_iff ..).trans (or_congr spoken digits)
  rw [structuralCheck, Bool.or_eq_true, steps, played, or_assoc]
  simp only [Fails, not_clipPresent, stepField_zero, stepField_one, List.any_eq_true, List.mem_range, exists_and_left]

theorem structuralCheck_eleven : structuralCheck img 11 = true ↔ Fails img 11 := by
  have beds := any_listedSteps_kind img 1 fun _ _ n => decide (3 < stepField img n 0)
  have groups := any_range_groups img fun g => decide (3 < u8 img (groupAt g + 33))
  simp only [decide_eq_true_eq] at beds groups
  simp only [stepField_zero] at beds
  rw [structuralCheck, Bool.or_eq_true]
  exact or_congr beds groups

theorem structuralCheck_twelve : structuralCheck img 12 = true ↔ Fails img 12 := by
  simp only [structuralCheck, Fails, List.any_eq_true, List.mem_range, Bool.or_eq_true, decide_eq_true_eq]
  rfl

theorem structuralCheck_thirteen : structuralCheck img 13 = true ↔ Fails img 13 := by
  simp only [structuralCheck, Fails, List.any_eq_true, List.mem_range, clipFault, decide_eq_true_eq]
  rfl

theorem structuralCheck_fourteen : structuralCheck img 14 = true ↔ Fails img 14 := by
  have branches : structuralCheck img 14 = true ↔ _ := any_listedSteps_kind img 6 fun l i n =>
    (List.range (branchCount img n)).any fun t =>
      decide (stepField img n (2 + t) ≤ i) || decide (listLength img l ≤ stepField img n (2 + t))
  simp only [branches, List.any_eq_true, List.mem_range, Bool.or_eq_true, decide_eq_true_eq]
  simp only [branchCount_eq, stepField_two_add, listLength, Fails, exists_and_left]

theorem structuralCheck_fifteen : structuralCheck img 15 = true ↔ Fails img 15 := by
  have holds (l : Nat) : (listDefined img l && containsNest img l) = true ↔ ∃ j m, StepInList img l j m 7 := by
    simp only [Bool.and_eq_true, listDefined_iff, containsNest, List.any_eq_true, List.mem_range, decide_eq_true_eq]
    constructor
    · rintro ⟨defined, j, inside, kind⟩
      exact ⟨j, _, defined, inside, rfl, kind⟩
    · rintro ⟨j, m, defined, inside, rfl, kind⟩
      exact ⟨defined, j, inside, kind⟩
  have nests := any_listedSteps_kind img 7 fun _ _ n =>
    listDefined img (stepField img n 0) && containsNest img (stepField img n 0)
  have check : structuralCheck img 15 = (listedSteps img).any (fun p => decide (stepKind img (stepNo img p.1 p.2) = 7) &&
      (listDefined img (stepField img (stepNo img p.1 p.2) 0) &&
        containsNest img (stepField img (stepNo img p.1 p.2) 0))) := by
    simp only [← Bool.and_assoc]
    rfl
  rw [check, nests]
  simp only [holds, stepField_zero, Fails, exists_and_left]

theorem structuralCheck_sixteen : structuralCheck img 16 = true ↔ Fails img 16 := by
  have repeats := any_listedSteps_kind img 5 fun l i n => decide (i + 1 = listLength img l) ||
    !([1, 2, 3, 4, 7].contains (stepKind img (n + 1)))
  simp only [Bool.or_eq_true, decide_eq_true_eq, Bool.not_eq_true', ← Bool.not_eq_true, List.contains_iff_mem] at repeats
  exact repeats

theorem structuralCheck_seventeen : structuralCheck img 17 = true ↔ Fails img 17 := by
  simp only [structuralCheck, Fails, List.any_eq_true, List.mem_range, thresholdFault, Bool.not_eq_true',
    ← Bool.not_eq_true, Bool.and_eq_true, decide_eq_true_eq, and_assoc]
  rfl

/-- The load's checks are the conditions on the bytes, code by code. -/
theorem structuralCheck_iff (code : Nat) : structuralCheck img code = true ↔ Fails img code :=
  match code with
  | 0 | 1 | 2 | 3 => by simp [structuralCheck, Fails]
  | 4 | 5 => decide_eq_true_iff
  | 6 => structuralCheck_six img
  | 7 => structuralCheck_seven img
  | 8 => structuralCheck_eight img
  | 9 => structuralCheck_nine img
  | 10 => structuralCheck_ten img
  | 11 => structuralCheck_eleven img
  | 12 => structuralCheck_twelve img
  | 13 => structuralCheck_thirteen img
  | 14 => structuralCheck_fourteen img
  | 15 => structuralCheck_fifteen img
  | 16 => structuralCheck_sixteen img
  | 17 => structuralCheck_seventeen img
  | _ + 18 => by simp [structuralCheck, Fails]

/-! ### The fault code (R177, R178) -/

theorem find?_cons_ite {α : Type} (p : α → Bool) (a : α) (l : List α) :
    (a :: l).find? p = if p a = true then some a else l.find? p := by
  cases h : p a <;> simp [h]

/-- The fault code is the first of the codes 4 to 17 whose check fails. -/
theorem structuralFault_eq : structuralFault img = (List.range' 4 14).find? (structuralCheck img) := by
  have codes : List.range' 4 14 = [4, 5, 6, 7, 8, 9, 10, 11, 12, 13, 14, 15, 16, 17] := rfl
  simp only [codes, find?_cons_ite, structuralCheck, decide_eq_true_eq]
  rfl

theorem mem_codes_of_fails {code : Nat} (fails : Fails img code) : code ∈ List.range' 4 14 := by
  have high : code < 18 := by
    by_contra beyond
    obtain ⟨n, rfl⟩ := Nat.exists_eq_add_of_le' (Nat.not_lt.1 beyond)
    exact fails
  have low : 4 ≤ code := by
    by_contra below
    match code with
    | 0 | 1 | 2 | 3 => exact fails
    | n + 4 => omega
  simp only [List.mem_range'_1]
  omega

theorem structuralFault_eq_some_iff (code : Nat) :
    structuralFault img = some code ↔ Fails img code ∧ ∀ c, c < code → ¬ Fails img c := by
  rw [structuralFault_eq, List.find?_range'_eq_some]
  simp only [structuralCheck_iff, Bool.not_eq_true', ← Bool.not_eq_true]
  constructor
  · rintro ⟨fails, -, least⟩
    exact ⟨fails, fun c before failsBefore =>
      least c (List.mem_range'_1.1 (mem_codes_of_fails img failsBefore)).1 before failsBefore⟩
  · rintro ⟨fails, least⟩
    exact ⟨fails, mem_codes_of_fails img fails, fun c _ before => least c before⟩

theorem structuralFault_eq_none_iff : structuralFault img = none ↔ ∀ c, ¬ Fails img c := by
  rw [structuralFault_eq, List.find?_eq_none]
  simp only [structuralCheck_iff]
  exact ⟨fun passes c fails => passes c (mem_codes_of_fails img fails) fails, fun passes c _ => passes c⟩

theorem headerFault_facts :
    (headerFault img = some 1 ↔ u16 img 0 ≠ 0x5344) ∧
    (headerFault img = some 2 ↔ u16 img 0 = 0x5344 ∧ (u16 img 2 < 3317 ∨ memoryBytes img < u16 img 2)) ∧
    (headerFault img = none ↔ u16 img 0 = 0x5344 ∧ 3317 ≤ u16 img 2 ∧ u16 img 2 ≤ memoryBytes img) := by
  have length : imageLength img = u16 img 2 := rfl
  unfold headerFault
  rw [length]
  split
  · next mark => simp [mark]
  · next mark =>
    rw [not_not] at mark
    split
    · next short =>
      rw [Bool.or_eq_true, decide_eq_true_eq, decide_eq_true_eq] at short
      refine ⟨by simp [mark], by simp [mark, short], ?_⟩
      simp only [reduceCtorEq, mark, true_and, false_iff]
      omega
    · next fits =>
      rw [Bool.or_eq_true, decide_eq_true_eq, decide_eq_true_eq] at fits
      refine ⟨by simp [mark], by simp [mark, fits], ?_⟩
      simp only [mark, true_and, true_iff]
      omega

end

/-! ### The reads (R177) -/

theorem exec_loadReadArrives (bytes : Vector Byte 32) (s : State) :
    exec (.loadReadArrives bytes) s = .next (attend s (loadBytes bytes.toList s)) := rfl

/-- The load has ended with a fault: its code pending, the station UNCONFIGURED, nothing more read (R129, R177). -/
theorem loadFault_eq (code : Nat) (s : State) : loadFault code s = { s with
    load := { s.load with reading := none }
    bus := { s.bus with station := .unconfigured }
    port := { s.port with loadFault := some code } } := rfl

/-- The bytes and the running sum with the read's bytes added (R176, R177). -/
def readTaken (img : List Byte) (total : Nat) (s : State) : State :=
  { s with load := { s.load with reading := some (img, total) } }

section
variable {s : State} {got img : List Byte} {sum total : Nat} {bytes : List Byte}
  (reading : s.load.reading = some (got, sum)) (all : img = got ++ bytes.take (readLength got))
  (sums : total = addToSum got.length sum (bytes.take (readLength got)))
include reading all

theorem loadBytes_headerFault (header : img.length = 8) {code : Nat} (fault : headerFault img = some code) :
    loadBytes bytes s = loadFault code s := by
  subst all
  simp only [loadBytes, reading, header, if_true, fault]

include sums

theorem loadBytes_header (header : img.length = 8) (passes : headerFault img = none) :
    loadBytes bytes s = readTaken img total s := by
  subst all sums
  simp only [loadBytes, reading, header, if_true, passes]
  rfl

theorem loadBytes_middle (notHeader : img.length ≠ 8) (more : img.length ≠ imageLength img) :
    loadBytes bytes s = readTaken img total s := by
  subst all sums
  simp only [loadBytes, reading, if_neg notHeader, if_neg more]
  rfl

theorem loadBytes_badSum (notHeader : img.length ≠ 8) (last : img.length = imageLength img) (bad : total ≠ 0) :
    loadBytes bytes s = loadFault 3 s := by
  subst all sums
  simp only [loadBytes, reading, if_neg notHeader, if_pos last, if_pos bad]

theorem loadBytes_structuralFault (notHeader : img.length ≠ 8) (last : img.length = imageLength img) (good : total = 0)
    {code : Nat} (fault : structuralFault img = some code) : loadBytes bytes s = loadFault code s := by
  subst all sums
  simp only [loadBytes, reading, if_neg notHeader, if_pos last, if_neg (not_not.2 good), fault]

theorem loadBytes_end (notHeader : img.length ≠ 8) (last : img.length = imageLength img) (good : total = 0)
    (passes : structuralFault img = none) : loadBytes bytes s = loadEnd img s := by
  subst all sums
  simp only [loadBytes, reading, if_neg notHeader, if_pos last, if_neg (not_not.2 good), passes]

end

theorem u24_eq (img : List Byte) (a : Nat) : u24 img a = 65536 * u8 img a + 256 * u8 img (a + 1) + u8 img (a + 2) :=
  (Nat.add_assoc ..).symm

/-- Settles O6: the reads by what has arrived, then what the checks are. -/
theorem loadReadsTheImage : Obligations.LoadReadsTheImage := by
  refine ⟨fun s bytes got new img sum failed reading take all fails => ⟨fun header code fault => ?_,
    fun continues => ?_, fun code notHeader last fault => ?_⟩, fun img => ?_,
    fun img a => ⟨u8_eq img a, rfl, u24_eq img a⟩, fun img => ⟨structuralFault_eq_some_iff img, structuralFault_eq_none_iff img⟩⟩
  · subst take
    rw [exec_loadReadArrives, loadBytes_headerFault reading all header fault, loadFault_eq, fails]
  · subst take
    have quiet (total : Nat) : attend s (readTaken img total s) = readTaken img total s := attend_quiet rfl rfl rfl rfl
    rw [exec_loadReadArrives]
    rcases continues with ⟨header, passes⟩ | ⟨notHeader, more⟩
    · rw [loadBytes_header reading all rfl header passes, quiet]
      rfl
    · rw [loadBytes_middle reading all rfl notHeader more, quiet]
      rfl
  · subst take
    rw [exec_loadReadArrives, fails, ← loadFault_eq]
    rcases fault with ⟨bad, rfl⟩ | ⟨good, structural⟩
    · rw [loadBytes_badSum reading all rfl notHeader last bad]
    · rw [loadBytes_structuralFault reading all rfl notHeader last good structural]
  · obtain ⟨mark, length, none⟩ := headerFault_facts img
    exact ⟨mark, length, none, rfl, rfl⟩

end Sys2Proof.Machine
end

section
/-! PROOFS of the end of a load without a fault (R176, R179, R180): the state it leaves, the numbers the configuration holds, and
the count of the clamps. -/

namespace Sys2Proof.Machine

/-! ### The state at the end of a load (R180) -/

/-- The blocks with their share of the image, before the first summary is placed (R180). -/
def imageHeld (img : List Byte) (s : State) : State :=
  { s with
    cfg := some (configurationOf img)
    load := { reading := none, clamped := clampCount img }
    aht := Vector.ofFn fun g => (configurationOf img).groups[g].initialAht
    time := { s.time with ds := 0, running := true, divisor := (configurationOf img).divisor }
    bus := { s.bus with
      id := some (Fin.ofNat 15 (u8 img 7))
      rng := some (seedRandom (configurationOf img).seed (Fin.ofNat 15 (u8 img 7)))
      station := .joining (configurationOf img).joinInterval
      dropRun := 0 } }

theorem loadEnd_eq (img : List Byte) (s : State) :
    loadEnd img s = beginDrive (startBrisk (summaryPlaced (imageHeld img s))) := by
  have joined : (0 : Nat) + (configurationOf img).joinInterval = (configurationOf img).joinInterval := Nat.zero_add _
  have held : enterJoining { s with
      cfg := some (configurationOf img)
      load := { reading := none, clamped := clampCount img }
      aht := Vector.ofFn fun g => (configurationOf img).groups[g].initialAht
      time := { s.time with ds := 0, running := true, divisor := (configurationOf img).divisor }
      bus := { s.bus with
        id := some (Fin.ofNat 15 (u8 img 7))
        rng := some (seedRandom (configurationOf img).seed (Fin.ofNat 15 (u8 img 7))) } } = imageHeld img s := by
    unfold imageHeld
    rw [← joined]
    rfl
  exact congrArg (fun u => beginDrive (startBrisk (placeSummary u))) held

/-- With an idle transmitter the first summary is taken in hand at once (R118, R126). -/
theorem choose_first_summary {b : Bus} (idle : b.inHand = none) (noReplies : b.replies = []) (noOrdinary : b.ordinary = [])
    {d : Nat} (joining : b.station = .joining d) (es : List Entry) :
    Bus.choose (Bus.takeSummary es b) =
      { b with slot := some es, inHand := some .summary, attempts := 0, backoff := none } := by
  have taken : Bus.takeSummary es b = { b with slot := some es } := if_neg (by simp [idle])
  have lane : ({ b with slot := some es } : Bus).nextLane = some .summary := by
    simp [Bus.nextLane, noReplies, noOrdinary, joining, StationState.sendsSummaries]
  rw [taken]
  simp only [Bus.choose, lane]
  rw [idle]

/-- The content of a summary does not depend on the highway, the Builder or the Bus Controller (R143). -/
theorem buildSummary_parts (s : State) (highway : Vector (Option Byte) 32) (builder : Builder) (bus : Bus) :
    buildSummary { s with highway, builder, bus } = buildSummary s := rfl

section
variable (img : List Byte) (s : State)

/-- The fields of the state at the end of a load that only the hand-over sets. -/
theorem loadEnd_frame : (loadEnd img s).cfg = some (configurationOf img) ∧ (loadEnd img s).load = ⟨none, clampCount img⟩ ∧
    (loadEnd img s).time = { s.time with ds := 0, running := true, divisor := (configurationOf img).divisor } ∧
    (loadEnd img s).agents = s.agents ∧ (loadEnd img s).calls = s.calls ∧ (loadEnd img s).queues = s.queues ∧
    (loadEnd img s).counts = s.counts ∧ (loadEnd img s).treat = s.treat ∧ (loadEnd img s).clips = s.clips ∧
    (loadEnd img s).exch = s.exch ∧ (loadEnd img s).peers = s.peers ∧ (loadEnd img s).port = s.port ∧
    (loadEnd img s).deferrals = s.deferrals ∧ (loadEnd img s).pending = s.pending :=
  ⟨rfl, rfl, rfl, rfl, rfl, rfl, rfl, rfl, rfl, rfl, rfl, rfl, rfl, rfl⟩

theorem loadEnd_aht (g : Group) : (loadEnd img s).aht[g] = (groupOf img g.val).initialAht := by
  have aht : (loadEnd img s).aht = Vector.ofFn fun g : Group => (configurationOf img).groups[g].initialAht := rfl
  simp [aht, configurationOf]

/-- The Builder starts at BRISK, with the first summary placed at time 0 (R146). -/
theorem loadEnd_builder : (loadEnd img s).builder = { s.builder with
    cadence := .brisk, hold := some (configurationOf img).briskHold, period := some (configurationOf img).brisk
    lastPlacement := some 0 } := by
  have hold : (0 : Nat) + (configurationOf img).briskHold = (configurationOf img).briskHold := Nat.zero_add _
  have period : (0 : Nat) + (configurationOf img).brisk = (configurationOf img).brisk := Nat.zero_add _
  rw [← hold, ← period]
  rfl

theorem loadEnd_bus (idle : s.bus.inHand = none) (noReplies : s.bus.replies = []) (noOrdinary : s.bus.ordinary = []) :
    (loadEnd img s).bus = { (imageHeld img s).bus with
      slot := some (buildSummary (imageHeld img s)), inHand := some .summary, attempts := 0, backoff := none } :=
  (congrArg State.bus (loadEnd_eq img s)).trans (choose_first_summary (b := (imageHeld img s).bus) idle noReplies noOrdinary
    rfl (buildSummary (imageHeld img s)))

theorem loadEnd_summary : buildSummary (imageHeld img s) = buildSummary (loadEnd img s) := by
  rw [loadEnd_eq]
  exact (buildSummary_parts (imageHeld img s) _ _ _).symm

theorem loadEnd_highway (idle : s.bus.inHand = none) (noReplies : s.bus.replies = []) (noOrdinary : s.bus.ordinary = [])
    (i : Fin 32) : (loadEnd img s).highway[i] =
      if s.time.syncPresent = true ∧ i.val ≤ 16 then some (configurationOf img).silence else none := by
  have bus : (startBrisk (summaryPlaced (imageHeld img s))).bus = _ := choose_first_summary (b := (imageHeld img s).bus)
    idle noReplies noOrdinary rfl (buildSummary (imageHeld img s))
  have serving : (startBrisk (summaryPlaced (imageHeld img s))).outOfService = false := by
    rw [State.outOfService, bus]
    rfl
  have highway : (loadEnd img s).highway = (Vector.ofFn fun i : Fin 32 =>
      if s.time.syncPresent = true ∧ i.val ≤ 16 then some (configurationOf img).silence else none) := by
    rw [loadEnd_eq, beginDrive_eq]
    simp only [serving, true_and]
    rfl
  simp [highway]

end

/-! ### Numbers (R176, R179) -/

theorem u8_lt (img : List Byte) (a : Nat) : u8 img a < 256 := BitVec.isLt _

theorem u16_lt (img : List Byte) (a : Nat) : u16 img a < 65536 := by
  have high := u8_lt img a
  have low := u8_lt img (a + 1)
  unfold u16
  omega

theorem nearer_zero_iff {hi n : Nat} (positive : 0 < hi) : nearer 0 hi n = 0 ↔ n = 0 := by
  unfold nearer
  omega

/-- A field of a table of fields, set to the nearer bound of its range. -/
theorem clamped_nearer {v lo hi n : Nat} (order : lo ≤ hi) (field : v = clamped (lo, hi, n)) : v = nearer lo hi n :=
  field.trans (clampTo_eq_nearer order n)

/-! ### The count of the clamps (R179) -/

theorem outside_eq (f : Nat × Nat × Nat) : outside f = decide (f.2.2 < f.1 ∨ f.2.1 < f.2.2) := by
  simp [outside]

theorem numericFields_eq (img : List Byte) : numericFields img = NumericFields img := by
  have steps : stepFields img = fun n => match u8 img (721 + 7 * n) with
      | 1 => [(1, 255, u8 img (723 + 7 * n))]
      | 4 => [(1, 255, u8 img (722 + 7 * n))]
      | 5 => [(0, 127, u8 img (722 + 7 * n))]
      | 6 => [(1, 4, u8 img (723 + 7 * n))]
      | _ => [] := by
    funext n
    simp only [stepFields, stepField_zero, stepField_one, stepKind] <;> rfl
  rw [numericFields, steps]
  rfl

theorem clampCount_eq (img : List Byte) : clampCount img = min 65535 (
    (NumericFields img).countP (fun f => decide (f.2.2 < f.1 ∨ f.2.1 < f.2.2)) +
    ((List.range 16).map fun g => GroupOrderClamps (nearer 0 3600 (u16 img (31 + 35 * g + 9)))
      (nearer 0 3600 (u16 img (31 + 35 * g + 11))) (nearer 0 3600 (u16 img (31 + 35 * g + 13)))).sum +
    (if nearer 1 600 (u16 img 19) < nearer 1 600 (u16 img 17) then 1 else 0) +
    if nearer 1 600 (u16 img 21) < max (nearer 1 600 (u16 img 17)) (nearer 1 600 (u16 img 19)) then 1 else 0) := by
  have t1 (g : Nat) : t1Of img g = nearer 0 3600 (u16 img (31 + 35 * g + 9)) := clamped_nearer (by omega) rfl
  have t2 (g : Nat) : fieldOf (groupFields img g) 5 = nearer 0 3600 (u16 img (31 + 35 * g + 11)) :=
    clamped_nearer (by omega) rfl
  have w (g : Nat) : fieldOf (groupFields img g) 6 = nearer 0 3600 (u16 img (31 + 35 * g + 13)) :=
    clamped_nearer (by omega) rfl
  have brisk : briskOf img = nearer 1 600 (u16 img 17) := clamped_nearer (by omega) rfl
  have easy : fieldOf (stationFields img) 6 = nearer 1 600 (u16 img 19) := clamped_nearer (by omega) rfl
  have slow : fieldOf (stationFields img) 7 = nearer 1 600 (u16 img 21) := clamped_nearer (by omega) rfl
  simp only [clampCount, saturate_eq_min, orderClamps, numericFields_eq, funext outside_eq, t1, t2, t2Of, w, brisk, easy,
    slow, easyOf, GroupOrderClamps, Nat.add_assoc]

/-! ### The configuration (R179, R180) -/

section
variable (img : List Byte)

/-- What a group record of the image holds (R176, R179). -/
theorem groupOf_facts (g a : Nat) (place : a = 31 + 35 * g) :
    ((groupOf img g).defined = true ↔ u8 img a ≠ 0) ∧
    (groupOf img g).wrapBudget = nearer 0 600 (u16 img (a + 1)) ∧
    (groupOf img g).extension = nearer 0 300 (u16 img (a + 3)) ∧
    (groupOf img g).graceLimit = nearer 0 1800 (u16 img (a + 5)) ∧
    ((groupOf img g).autoReady = true ↔ u8 img (a + 7) ≠ 0) ∧
    (groupOf img g).alertTime = nearer 5 60 (u8 img (a + 8)) ∧
    (groupOf img g).t1 = nearer 0 3600 (u16 img (a + 9)) ∧
    (groupOf img g).t2 = max (groupOf img g).t1 (nearer 0 3600 (u16 img (a + 11))) ∧
    (groupOf img g).maxWait = (if u16 img (a + 13) = 0 then 0
      else max (groupOf img g).t2 (nearer 0 3600 (u16 img (a + 13)))) ∧
    (∀ o : Group, (groupOf img g).overflow = some o ↔ o.val = u8 img (a + 15)) ∧
    (groupOf img g).wIdle = nearer 0 15 (u8 img (a + 16)) ∧
    (groupOf img g).wOcc = nearer 0 15 (u8 img (a + 17)) ∧
    (groupOf img g).initialAht = nearer 1 3600 (u16 img (a + 18)) ∧
    (groupOf img g).ewtAt = (u16 img (a + 20), u16 img (a + 22), u16 img (a + 24)) ∧
    (groupOf img g).posAt = (u16 img (a + 26), u16 img (a + 28), u16 img (a + 30)) ∧
    (groupOf img g).treatment = u8 img (a + 32) ∧
    (u8 img (a + 33) ≤ 3 → (groupOf img g).fallback.val = u8 img (a + 33)) ∧
    (groupOf img g).divertCode.toNat = u8 img (a + 34) := by
  subst place
  have t2 : (groupOf img g).t2 = max (groupOf img g).t1 (fieldOf (groupFields img g) 5) := rfl
  have t2Field : fieldOf (groupFields img g) 5 = nearer 0 3600 (u16 img (31 + 35 * g + 11)) := clamped_nearer (by omega) rfl
  have maxWait : (groupOf img g).maxWait = if fieldOf (groupFields img g) 6 = 0 then 0
      else max (groupOf img g).t2 (fieldOf (groupFields img g) 6) := rfl
  have maxWaitField : fieldOf (groupFields img g) 6 = nearer 0 3600 (u16 img (31 + 35 * g + 13)) :=
    clamped_nearer (by omega) rfl
  refine ⟨decide_eq_true_iff, clamped_nearer (by omega) rfl, clamped_nearer (by omega) rfl, clamped_nearer (by omega) rfl,
    decide_eq_true_iff, clamped_nearer (by omega) rfl, clamped_nearer (by omega) rfl, by rw [t2, t2Field], ?_, fun o => ?_,
    clamped_nearer (by omega) rfl, clamped_nearer (by omega) rfl, clamped_nearer (by omega) rfl, rfl, rfl, rfl, fun small => ?_, ?_⟩
  · rw [maxWait, maxWaitField]
    simp only [nearer_zero_iff (show 0 < 3600 by omega)]
  · have overflow : (groupOf img g).overflow =
        if h : u8 img (31 + 35 * g + 15) < 16 then some ⟨u8 img (31 + 35 * g + 15), h⟩ else none := rfl
    rw [overflow]
    split
    · simp only [Option.some.injEq, Fin.ext_iff, eq_comm]
    · have := o.isLt
      simp only [reduceCtorEq, false_iff]
      omega
  · have fallback : (groupOf img g).fallback.val = u8 img (31 + 35 * g + 33) % 4 := rfl
    omega
  · have code : (groupOf img g).divertCode.toNat = u8 img (31 + 35 * g + 34) % 256 := rfl
    rw [code, Nat.mod_eq_of_lt (u8_lt ..)]

theorem listOf_eq {l : Nat} (small : l < 32) : listOf img l = if u16 img (592 + 4 * l) = 0 then none
    else some ⟨(List.range (u16 img (592 + 4 * l))).map fun i => stepOf img (u8 img (591 + 4 * l) + i),
      u8 img (594 + 4 * l)⟩ := by
  by_cases empty : u16 img (592 + 4 * l) = 0
  · have undefined : listDefined img l = false := by
      rw [← Bool.not_eq_true, listDefined_iff]
      exact fun defined => defined.2 empty
    rw [if_pos empty, listOf, undefined]
    rfl
  · have defined : listDefined img l = true := (listDefined_iff img l).2 ⟨small, empty⟩
    rw [if_neg empty, listOf, if_pos defined]
    rfl

theorem clipOf_eq {k : Nat} (small : k < 128) : clipOf img k = if u24 img (2516 + 6 * k) = 0 then none
    else some ⟨u24 img (2513 + 6 * k), u24 img (2516 + 6 * k)⟩ := by
  by_cases empty : u24 img (2516 + 6 * k) = 0
  · have absent : clipPresent img k = false := by
      rw [← Bool.not_eq_true, clipPresent_iff]
      exact fun present => present.2 empty
    rw [if_pos empty, clipOf, absent]
    rfl
  · have present : clipPresent img k = true := (clipPresent_iff img k).2 ⟨small, empty⟩
    rw [if_neg empty, clipOf, if_pos present]
    rfl

/-- The selector of a BRANCH is the one at its place in the order of 11.5. -/
theorem branchOnOf_eq {n : Nat} {on : BranchOn}
    (place : [BranchOn.positionBucket, .ewtBucket, .tier, .priority, .visit][n]? = some on) : branchOnOf n = on := by
  match n with
  | 0 | 1 | 2 | 3 | 4 => exact Option.some.inj place
  | n + 5 => simp at place

/-- What a step of the image is, by its kind (R176, R179). -/
theorem stepOf_facts (n : Nat) (f : Nat → Nat) (fields : ∀ i, f i = u8 img (722 + 7 * n + i)) :
    (u8 img (721 + 7 * n) = 1 → ∀ b : Bed, b.val = f 0 → stepOf img n = .bed b (nearer 1 255 (f 1))) ∧
    (u8 img (721 + 7 * n) = 2 → stepOf img n = .say (f 0)) ∧
    (u8 img (721 + 7 * n) = 3 → (f 0 = 0 → stepOf img n = .sayValue .position (f 1)) ∧
      (f 0 = 1 → stepOf img n = .sayValue .ewtMinutes (f 1))) ∧
    (u8 img (721 + 7 * n) = 4 → stepOf img n = .silence (nearer 1 255 (f 0))) ∧
    (u8 img (721 + 7 * n) = 5 → stepOf img n = .repeatNext (nearer 0 127 (f 0))) ∧
    (u8 img (721 + 7 * n) = 6 → ∀ on : BranchOn,
      [BranchOn.positionBucket, .ewtBucket, .tier, .priority, .visit][f 0]? = some on →
      stepOf img n = .branch on ((List.range (nearer 1 4 (f 1))).map fun t => f (2 + t))) ∧
    (u8 img (721 + 7 * n) = 7 → stepOf img n = .nest (f 0)) ∧
    (u8 img (721 + 7 * n) = 8 → stepOf img n = .endList) := by
  have field : stepField img n = f := funext fun i => (fields i).symm
  refine ⟨fun kind b bed => ?_, fun kind => ?_, fun kind => ⟨fun zero => ?_, fun one => ?_⟩, fun kind => ?_,
    fun kind => ?_, fun kind on place => ?_, fun kind => ?_, fun kind => ?_⟩
  all_goals
    have kind' : stepKind img n = _ := kind
    simp only [stepOf, stepFields, kind', field]
  · have same : Fin.ofNat 4 (f 0) = b := Fin.ext (by have := b.isLt; simp only [Fin.val_ofNat]; omega)
    rw [same]
    exact congrArg (TreatStep.bed b) (clamped_nearer (by omega) rfl)
  · rw [if_pos zero]
  · rw [if_neg (by omega)]
  · exact congrArg TreatStep.silence (clamped_nearer (by omega) rfl)
  · exact congrArg TreatStep.repeatNext (clamped_nearer (by omega) rfl)
  · have count : fieldOf [(1, 4, f 1)] 0 = nearer 1 4 (f 1) := clamped_nearer (by omega) rfl
    rw [branchOnOf_eq place, count]

end

/-- Settles O7: the state the last read leaves, the count of the clamps, then the numbers of the configuration. -/
theorem loadEndsInJoining : Obligations.LoadEndsInJoining := by
  refine ⟨fun s bytes got img sum reading all notHeader last good passes idle noReplies noOrdinary noLine => ?_,
    fun img => ⟨clampCount_eq img, configurationOf img, rfl, ?_⟩⟩
  · have ended : exec (.loadReadArrives bytes) s = .next (attend s (loadEnd img s)) := by
      rw [exec_loadReadArrives, loadBytes_end reading all rfl notHeader last good passes]
    have stationId : u8 img 7 < 15 := by
      have check : ¬ 14 < u8 img 7 := (structuralFault_eq_none_iff img).1 passes 4
      omega
    have me : (Fin.ofNat 15 (u8 img 7)).val = u8 img 7 := Nat.mod_eq_of_lt stationId
    obtain ⟨cfg, load, time, agents, calls, queues, counts, treat, clips, exch, peers, port, deferrals, pending⟩ :=
      loadEnd_frame img s
    have bus := loadEnd_bus img s idle noReplies noOrdinary
    have builder := loadEnd_builder img s
    refine ⟨loadEnd img s, ended, cfg, load, time, loadEnd_aht img s, ⟨_, me, by rw [bus]; rfl, by rw [bus]; rfl⟩,
      by rw [bus]; rfl, by rw [bus]; rfl, by rw [bus], by rw [bus], by rw [bus], ?_, by rw [builder], by rw [builder],
      by rw [builder], by rw [builder], by rw [builder], loadEnd_highway img s idle noReplies noOrdinary, agents, calls,
      queues, counts, treat, clips, exch, peers, port, deferrals, pending⟩
    rw [bus, ← loadEnd_summary]
  · have seed : (configurationOf img).seed.toNat = u16 img 8 := Nat.mod_eq_of_lt (u16_lt img 8)
    have silence : (configurationOf img).silence.toNat = u8 img 28 := Nat.mod_eq_of_lt (u8_lt img 28)
    have easy : (configurationOf img).easy = max (configurationOf img).brisk (fieldOf (stationFields img) 6) := rfl
    have easyField : fieldOf (stationFields img) 6 = nearer 1 600 (u16 img 19) := clamped_nearer (by omega) rfl
    have slow : (configurationOf img).slow = max (configurationOf img).easy (fieldOf (stationFields img) 7) := rfl
    have slowField : fieldOf (stationFields img) 7 = nearer 1 600 (u16 img 21) := clamped_nearer (by omega) rfl
    refine ⟨seed, clamped_nearer (by omega) rfl, clamped_nearer (by omega) rfl, clamped_nearer (by omega) rfl, clamped_nearer (by omega) rfl,
      clamped_nearer (by omega) rfl, clamped_nearer (by omega) rfl, by rw [easy, easyField], by rw [slow, slowField],
      clamped_nearer (by omega) rfl, clamped_nearer (by omega) rfl, ?_, silence, clamped_nearer (by omega) rfl, fun g a place =>
        ⟨by simp [configurationOf], groupOf_facts img g.val a place⟩, fun l => ?_, fun k => ?_, fun b => ?_,
      fun n f fields => stepOf_facts img n f fields⟩
    · have pulse : (configurationOf img).pulseMode = decide (fieldOf (stationFields img) 10 = 1) := rfl
      have field : fieldOf (stationFields img) 10 = nearer 0 1 (u8 img 27) := clamped_nearer (by omega) rfl
      rw [pulse, field, decide_eq_true_eq, nearer]
      omega
    · rw [← listOf_eq img l.isLt]
      simp [configurationOf]
    · rw [← clipOf_eq img k.isLt]
      simp [configurationOf]
    · have playlist : (configurationOf img).playlists[b] = (List.range (playCount img b.val)).map (playClip img b.val) := by
        simp [configurationOf]
      exact playlist

end Sys2Proof.Machine
end

section
/-! PROOFS of the orders of choice (R54, R64, R67, R72, R73, R140, R161). Every choice is one walk of a list that keeps the best
so far; `bestOfList` is that walk, and its one lemma says what it keeps. Then each choice is such a walk, with its own key. -/

namespace Sys2Proof.Machine

/-! ### The walk that keeps the best so far -/

/-- The best of what a list offers: a later offer is kept when it is better than the one held. -/
def bestOfList {α β : Type} (offer : α → Option β) (better : β → β → Bool) (l : List α) : Option β :=
  l.foldl (fun held a =>
    match offer a with
    | none => held
    | some b =>
      match held with
      | none => some b
      | some b' => if better b b' then some b else held) none

section
variable {α β K : Type} [LinearOrder K] {offer : α → Option β} {better : β → β → Bool} {key : β → K}

theorem bestOfList_concat_quiet {l : List α} {x : α} (quiet : offer x = none) :
    bestOfList offer better (l ++ [x]) = bestOfList offer better l := by
  simp only [bestOfList, List.foldl_append, List.foldl_cons, List.foldl_nil, quiet]

theorem bestOfList_concat_first {l : List α} {x : α} {b : β} (offered : offer x = some b)
    (empty : bestOfList offer better l = none) : bestOfList offer better (l ++ [x]) = some b := by
  unfold bestOfList at empty ⊢
  simp only [List.foldl_append, List.foldl_cons, List.foldl_nil, offered, empty]

theorem bestOfList_concat_held {l : List α} {x : α} {b b' : β} (offered : offer x = some b)
    (held : bestOfList offer better l = some b') :
    bestOfList offer better (l ++ [x]) = if better b b' = true then some b else some b' := by
  unfold bestOfList at held ⊢
  simp only [List.foldl_append, List.foldl_cons, List.foldl_nil, offered, held]

/-- The walk holds nothing exactly when nothing was offered. -/
theorem bestOfList_eq_none_iff (l : List α) : bestOfList offer better l = none ↔ ∀ a ∈ l, offer a = none := by
  induction l using List.reverseRecOn with
  | nil => simp [bestOfList]
  | append_singleton l x ih =>
    cases offered : offer x with
    | none => simp [bestOfList_concat_quiet offered, ih, offered, or_imp, forall_and]
    | some b =>
      have kept : bestOfList offer better (l ++ [x]) ≠ none := by
        cases held : bestOfList offer better l with
        | none => simp [bestOfList_concat_first offered held]
        | some b' =>
          rw [bestOfList_concat_held offered held]
          split <;> simp
      simp only [kept, false_iff]
      exact fun none => Option.some_ne_none b (offered.symm.trans (none x (by simp)))

/-- Where a better offer is one of a lower key, the walk keeps the first offer of the lowest key: every offer before it has a
higher key, and no offer after it a lower one. -/
theorem bestOfList_splits {l : List α} {b : β}
    (order : ∀ x ∈ l, ∀ y ∈ l, ∀ c d, offer x = some c → offer y = some d → (better c d = true ↔ key c < key d))
    (best : bestOfList offer better l = some b) :
    ∃ before a after, l = before ++ a :: after ∧ offer a = some b ∧
      (∀ d ∈ before, ∀ c, offer d = some c → key b < key c) ∧ ∀ d ∈ after, ∀ c, offer d = some c → key b ≤ key c := by
  induction l using List.reverseRecOn generalizing b with
  | nil => simp [bestOfList] at best
  | append_singleton l x ih =>
    have orderL : ∀ x ∈ l, ∀ y ∈ l, ∀ c d, offer x = some c → offer y = some d → (better c d = true ↔ key c < key d) :=
      fun x inX y inY => order x (List.mem_append_left _ inX) y (List.mem_append_left _ inY)
    have keeps (held : bestOfList offer better l = some b) (late : ∀ c, offer x = some c → key b ≤ key c) :
        ∃ before a after, l ++ [x] = before ++ a :: after ∧ offer a = some b ∧
          (∀ d ∈ before, ∀ c, offer d = some c → key b < key c) ∧
          ∀ d ∈ after, ∀ c, offer d = some c → key b ≤ key c := by
      obtain ⟨before, a, after, split, offered, above, notBelow⟩ := ih orderL held
      refine ⟨before, a, after ++ [x], by simp [split], offered, above, fun d inAfter c offers => ?_⟩
      rcases List.mem_append.1 inAfter with inside | last
      · exact notBelow d inside c offers
      · exact late c (List.mem_singleton.1 last ▸ offers)
    cases offered : offer x with
    | none =>
      rw [bestOfList_concat_quiet offered] at best
      exact keeps best fun c offers => nomatch offered.symm.trans offers
    | some bx =>
      cases held : bestOfList offer better l with
      | none =>
        have nothing := (bestOfList_eq_none_iff l).1 held
        rw [bestOfList_concat_first offered held] at best
        cases best
        refine ⟨l, x, [], rfl, offered, fun d inside c offers => ?_, nofun⟩
        exact absurd ((nothing d inside).symm.trans offers) (by simp)
      | some b' =>
        rw [bestOfList_concat_held offered held] at best
        obtain ⟨before, a, after, split, offeredA, above, notBelow⟩ := ih orderL held
        have inA : a ∈ l ++ [x] := by simp [split]
        have better_iff := order x (by simp) a inA bx b' offered offeredA
        split at best
        · next takes =>
          cases best
          have lower := better_iff.1 takes
          refine ⟨l, x, [], rfl, offered, fun d inside c offers => ?_, nofun⟩
          rw [split] at inside
          rcases List.mem_append.1 inside with early | late
          · exact lower.trans (above d early c offers)
          · rcases List.mem_cons.1 late with rfl | late
            · cases offeredA.symm.trans offers
              exact lower
            · exact lower.trans_le (notBelow d late c offers)
        · next leaves =>
          cases best
          refine keeps held fun c offers => ?_
          cases offered.symm.trans offers
          exact not_lt.1 (mt better_iff.2 leaves)

/-- The walk keeps an offer of the lowest key, and of those the one that stands first in the list. -/
theorem bestOfList_spec [BEq α] [LawfulBEq α] {l : List α} {b : β}
    (order : ∀ x ∈ l, ∀ y ∈ l, ∀ c d, offer x = some c → offer y = some d → (better c d = true ↔ key c < key d))
    (best : bestOfList offer better l = some b) :
    ∃ a ∈ l, offer a = some b ∧ ∀ d ∈ l, ∀ c, offer d = some c →
      key b < key c ∨ (key b = key c ∧ l.idxOf a ≤ l.idxOf d) := by
  obtain ⟨before, a, after, split, offered, above, notBelow⟩ := bestOfList_splits order best
  have notBefore : a ∉ before := fun inside => lt_irrefl _ (above a inside b offered)
  have place : l.idxOf a = before.length := by rw [split, List.idxOf_append_of_notMem notBefore]; simp
  refine ⟨a, by simp [split], offered, fun d inside c offers => ?_⟩
  by_cases early : d ∈ before
  · exact .inl (above d early c offers)
  · have behind : before.length ≤ l.idxOf d := by
      rw [split, List.idxOf_append_of_notMem early]
      exact Nat.le_add_right _ _
    have notLower : key b ≤ key c := by
      rw [split] at inside
      rcases List.mem_append.1 inside with inBefore | late
      · exact absurd inBefore early
      · rcases List.mem_cons.1 late with rfl | late
        · cases offered.symm.trans offers
          exact le_rfl
        · exact notBelow d late c offers
    rcases notLower.lt_or_eq with lower | same
    · exact .inl lower
    · exact .inr ⟨same, place.trans_le behind⟩

end

/-! ### The best local agent (R54) -/

/-- What a position offers to the choice of R54: itself with its score, when that is above 0. -/
def agentOffer (score : Position → Nat) (p : Position) : Option (Position × Nat) :=
  if score p = 0 then none else some (p, score p)

theorem agentOffer_eq_some_iff (score : Position → Nat) (p : Position) (b : Position × Nat) :
    agentOffer score p = some b ↔ score p ≠ 0 ∧ b = (p, score p) := by
  unfold agentOffer
  split <;> simp_all [eq_comm]

theorem bestAgent_eq (s : State) (score : Position → Nat) : bestAgent s score =
    bestOfList (agentOffer score) (fun b b' => ahead s b.1 b.2 b'.1 b'.2) (List.finRange 48) := by
  unfold bestAgent bestOfList
  congr 1
  funext held p
  by_cases zero : score p = 0
  · simp only [zero, if_true, agentOffer]
  · simp only [zero, if_false, agentOffer]
    cases held <;> rfl

/-- The order of R54 as a key: the score from the top, then the earlier ready_since. -/
def agentKey (s : State) (b : Position × Nat) : ℕᵒᵈ ×ₗ ℕ :=
  toLex (OrderDual.toDual b.2, (s.agent b.1).state.since.getD 0)

theorem agentKey_lt_iff (s : State) (b b' : Position × Nat) : agentKey s b < agentKey s b' ↔
    b'.2 < b.2 ∨ (b.2 = b'.2 ∧ (s.agent b.1).state.since.getD 0 < (s.agent b'.1).state.since.getD 0) := by
  simp [agentKey, Prod.Lex.toLex_lt_toLex]

theorem since_of_available {st : AgentState} (available : st.available = true) : ∃ t, st.since = some t := by
  cases st with
  | ready t | claiming t => exact ⟨t, rfl⟩
  | loggedOut | notReady | alerting | talking | wrap | wrapOver => exact absurd available Bool.false_ne_true

theorem ahead_iff {s : State} {b b' : Position × Nat} (available : (s.agent b.1).state.available = true)
    (available' : (s.agent b'.1).state.available = true) :
    ahead s b.1 b.2 b'.1 b'.2 = true ↔ agentKey s b < agentKey s b' := by
  obtain ⟨t, since⟩ := since_of_available available
  obtain ⟨t', since'⟩ := since_of_available available'
  simp only [ahead, agentKey_lt_iff, since, since', Option.getD_some, Bool.or_eq_true, Bool.and_eq_true, decide_eq_true_eq]
  exact or_congr_right (and_congr_left' eq_comm)

/-! ### The best peer (R64, R67) -/

/-- What a group offers for a call to a peer: the peer's best there, when it has an agent ready. -/
def groupOffer (s : State) (p : Station) (g : Group) : Option (Nat × Group) :=
  if (peerEntry s p g).ready = 0 then none else some ((peerEntry s p g).best, g)

/-- What a peer offers for a call: its best candidate. -/
def peerOffer (s : State) (k : Call) (p : Station) : Option (Station × Nat × Group) :=
  if k.declined[p] then none else (peerCandidate s p (s.eligibleGroups k)).map fun vg => (p, vg.1, vg.2)

theorem peerCandidate_eq (s : State) (p : Station) (gs : List Group) :
    peerCandidate s p gs = bestOfList (groupOffer s p) (fun b b' => decide (b'.1 < b.1)) gs := by
  unfold peerCandidate bestOfList
  congr 1
  funext held g
  by_cases zero : (peerEntry s p g).ready = 0
  · simp only [zero, if_true, groupOffer]
  · simp only [zero, if_false, groupOffer, decide_eq_true_eq]
    cases held <;> rfl

theorem bestPeer_eq (s : State) (k : Call) (able : s.bus.station = .active ∧ k.tier ≠ 0) :
    bestPeer s k = bestOfList (peerOffer s k) (fun b b' => decide (b'.2.1 < b.2.1)) (List.finRange 15) := by
  unfold bestPeer bestOfList
  rw [if_pos able]
  congr 1
  funext held p
  by_cases declined : k.declined[p] = true
  · simp only [declined, if_true, peerOffer]
  · simp only [declined, peerOffer, decide_eq_true_eq]
    cases peerCandidate s p (s.eligibleGroups k) with
    | none => rfl
    | some vg => cases held <;> rfl

theorem groupOffer_eq_some_iff (s : State) (p : Station) (g : Group) (b : Nat × Group) :
    groupOffer s p g = some b ↔ 0 < (peerEntry s p g).ready ∧ b = ((peerEntry s p g).best, g) := by
  unfold groupOffer
  split
  · next zero => simp [zero]
  · next some => simp [Nat.pos_of_ne_zero some, eq_comm]

section
variable {s : State} {k : Call}

/-- The candidate of a peer: the highest best over the eligible groups with an agent ready, the home group on a tie. -/
theorem peerCandidate_spec {p : Station} {v : Nat} {g : Group}
    (candidate : peerCandidate s p (s.eligibleGroups k) = some (v, g)) :
    g ∈ s.eligibleGroups k ∧ 0 < (peerEntry s p g).ready ∧ v = (peerEntry s p g).best ∧
      ∀ h ∈ s.eligibleGroups k, 0 < (peerEntry s p h).ready →
        (peerEntry s p h).best < v ∨ ((peerEntry s p h).best = v ∧ (g = k.group ∨ h = g)) := by
  rw [peerCandidate_eq] at candidate
  obtain ⟨a, inList, offered, least⟩ := bestOfList_spec (key := fun b => OrderDual.toDual b.1)
    (fun _ _ _ _ c d _ _ => by simp) candidate
  obtain ⟨ready, same⟩ := (groupOffer_eq_some_iff ..).1 offered
  cases same
  refine ⟨inList, ready, rfl, fun h eligible readyH => ?_⟩
  have offersH : groupOffer s p h = some ((peerEntry s p h).best, h) := (groupOffer_eq_some_iff ..).2 ⟨readyH, rfl⟩
  rcases least h eligible _ offersH with lower | ⟨tie, first⟩
  · exact .inl lower
  · refine .inr ⟨tie.symm, or_iff_not_imp_left.2 fun away => ?_⟩
    have homeFirst : (s.eligibleGroups k).idxOf k.group = 0 := by simp [State.eligibleGroups]
    have placeG : (s.eligibleGroups k).idxOf g ≠ 0 := by
      simp [State.eligibleGroups, Ne.symm away]
    have notHome : h ≠ k.group := by
      rintro rfl
      omega
    have overflow (x : Group) (inside : x ∈ s.eligibleGroups k) (other : x ≠ k.group) :
        (s.groupRec k.group).overflow = some x := by
      simp only [State.eligibleGroups, List.mem_cons, other, false_or] at inside
      split at inside
      · exact Option.mem_toList.1 inside
      · cases inside
    exact Option.some.inj ((overflow h eligible notHome).symm.trans (overflow g inList away))

theorem peerCandidate_eq_none_iff {p : Station} : peerCandidate s p (s.eligibleGroups k) = none ↔
    ∀ g ∈ s.eligibleGroups k, (peerEntry s p g).ready = 0 := by
  rw [peerCandidate_eq, bestOfList_eq_none_iff]
  refine forall₂_congr fun g _ => ?_
  unfold groupOffer
  split <;> simp_all

theorem peerOffer_eq_some_iff (p : Station) (b : Station × Nat × Group) : peerOffer s k p = some b ↔
    k.declined[p] = false ∧ b.1 = p ∧ peerCandidate s p (s.eligibleGroups k) = some b.2 := by
  obtain ⟨q, v, g⟩ := b
  unfold peerOffer
  split
  · next declined => simp [declined]
  · next undeclined =>
    simp only [Option.map_eq_some_iff, Prod.exists, Prod.mk.injEq, Bool.not_eq_true] at undeclined ⊢
    constructor
    · rintro ⟨v', g', candidate, rfl, rfl, rfl⟩
      exact ⟨undeclined, rfl, candidate⟩
    · rintro ⟨-, rfl, candidate⟩
      exact ⟨v, g, candidate, rfl, rfl, rfl⟩

/-- A candidate of a peer is among what the peer offers. -/
theorem peerOffer_of_candidate {q : Station} {h : Group} (candidate : PeerCandidate s k q h) :
    ∃ v g, peerOffer s k q = some (q, v, g) ∧ peerCandidate s q (s.eligibleGroups k) = some (v, g) := by
  obtain ⟨undeclined, eligible, ready⟩ := candidate
  cases found : peerCandidate s q (s.eligibleGroups k) with
  | none => exact absurd (peerCandidate_eq_none_iff.1 found h eligible) ready.ne'
  | some vg => exact ⟨vg.1, vg.2, (peerOffer_eq_some_iff q (q, vg)).2 ⟨undeclined, rfl, found⟩, rfl⟩

theorem bestPeer_spec {p : Station} {v : Nat} {g : Group} (best : bestPeer s k = some (p, v, g)) :
    s.bus.station = .active ∧ k.tier ≠ 0 ∧ PeerCandidate s k p g ∧ v = (peerEntry s p g).best ∧
      ∀ q h, PeerCandidate s k q h → (peerEntry s q h).best < v ∨
        ((peerEntry s q h).best = v ∧ (p < q ∨ (p = q ∧ (g = k.group ∨ h = g)))) := by
  have able : s.bus.station = .active ∧ k.tier ≠ 0 := by
    by_contra unable
    rw [bestPeer, if_neg unable] at best
    cases best
  rw [bestPeer_eq s k able] at best
  obtain ⟨a, -, offered, least⟩ := bestOfList_spec (key := fun b => OrderDual.toDual b.2.1)
    (fun _ _ _ _ c d _ _ => by simp) best
  obtain ⟨undeclined, rfl, candidate⟩ := (peerOffer_eq_some_iff ..).1 offered
  obtain ⟨eligible, ready, value, highest⟩ := peerCandidate_spec candidate
  refine ⟨able.1, able.2, ⟨undeclined, eligible, ready⟩, value, fun q h candidateH => ?_⟩
  obtain ⟨vq, gq, offersQ, candidateQ⟩ := peerOffer_of_candidate candidateH
  obtain ⟨-, eligibleH, readyH⟩ := candidateH
  obtain ⟨-, -, -, highestQ⟩ := peerCandidate_spec candidateQ
  rcases least q (List.mem_finRange q) _ offersQ with lower | ⟨tie, first⟩
  · have below : vq < v := lower
    rcases highestQ h eligibleH readyH with less | ⟨same, -⟩
    · exact .inl (less.trans below)
    · exact .inl (same.trans_lt below)
  · have same : v = vq := tie
    rw [List.idxOf_finRange, List.idxOf_finRange] at first
    by_cases own : p = q
    · subst own
      rcases highest h eligibleH readyH with less | ⟨equal, home⟩
      · exact .inl less
      · exact .inr ⟨equal, .inr ⟨rfl, home⟩⟩
    · have earlier : p < q := lt_of_le_of_ne first own
      rcases highestQ h eligibleH readyH with less | ⟨equal, -⟩
      · exact .inl (same ▸ less)
      · exact .inr ⟨equal.trans same.symm, .inl earlier⟩

theorem bestPeer_none (none : bestPeer s k = none) :
    s.bus.station ≠ .active ∨ k.tier = 0 ∨ ∀ p g, ¬ PeerCandidate s k p g := by
  by_cases able : s.bus.station = .active ∧ k.tier ≠ 0
  · refine .inr (.inr fun p g candidate => ?_)
    obtain ⟨v, h, offers, -⟩ := peerOffer_of_candidate candidate
    rw [bestPeer_eq s k able] at none
    exact Option.some_ne_none _ (offers.symm.trans ((bestOfList_eq_none_iff _).1 none p (List.mem_finRange p)))
  · by_cases active : s.bus.station = .active
    · exact .inr (.inl (not_not.1 fun tier => able ⟨active, tier⟩))
    · exact .inl active

end

/-! ### The call an agent takes (R72) -/

/-- What a queued slot offers an agent: its call, when it is open to the agent. -/
def callOffer (s : State) (a : Agent) (c : Slot) : Option (Slot × Call) :=
  (s.selectable c).bind fun k => if eligibleFor s a k then some (c, k) else none

theorem pickCall_eq (s : State) (a : Agent) : pickCall s a = bestOfList (callOffer s a)
    (fun b b' => decide (b.2.priority < b'.2.priority ∨ (b.2.priority = b'.2.priority ∧ b.2.arrival < b'.2.arrival)))
    s.queuedSlots := by
  unfold pickCall bestOfList
  congr 1
  funext held c
  cases selected : s.selectable c with
  | none => simp only [callOffer, selected, Option.bind_none]
  | some k =>
    by_cases eligible : eligibleFor s a k = true
    · simp only [callOffer, selected, Option.bind_some, eligible, if_true, decide_eq_true_eq]
      cases held <;> rfl
    · simp only [callOffer, selected, Option.bind_some, if_neg eligible]

theorem callOffer_eq_some_iff {s : State} {a : Agent} {c : Slot} (queued : c ∈ s.queuedSlots) (b : Slot × Call) :
    callOffer s a c = some b ↔ b.1 = c ∧ OpenTo s a c b.2 := by
  obtain ⟨d, k⟩ := b
  simp only [callOffer, Option.bind_eq_some_iff, Option.ite_none_right_eq_some, Option.some.injEq, Prod.mk.injEq,
    selectable_eq_some_iff, OpenTo, eligibleFor, List.any_eq_true, queued, true_and]
  constructor
  · rintro ⟨j, ⟨held, waiting, fresh⟩, meets, rfl, rfl⟩
    exact ⟨rfl, held, waiting, fresh, meets⟩
  · rintro ⟨rfl, held, waiting, fresh, meets⟩
    exact ⟨k, ⟨held, waiting, fresh⟩, meets, rfl, rfl⟩

/-- The order of R72 as a key: the class, then the arrival. -/
def callKey (b : Slot × Call) : Fin 4 ×ₗ ℕ := toLex (b.2.priority, b.2.arrival)

theorem callKey_lt_iff (b b' : Slot × Call) : callKey b < callKey b' ↔
    b.2.priority < b'.2.priority ∨ (b.2.priority = b'.2.priority ∧ b.2.arrival < b'.2.arrival) := by
  simp [callKey, Prod.Lex.toLex_lt_toLex]

/-! ### The claim of an agent (R73) -/

/-- What a peer's entry for one of the agent's groups offers to a claim: itself and its age, when callers wait there. -/
def claimOffer (s : State) (e : Station × Group) : Option ((Station × Group) × Nat) :=
  if (peerEntry s e.1 e.2).waiting = 0 then none else some (e, effectiveAge s e.1 e.2)

theorem claimOffer_eq_some_iff (s : State) (e : Station × Group) (b : (Station × Group) × Nat) :
    claimOffer s e = some b ↔ 0 < (peerEntry s e.1 e.2).waiting ∧ b = (e, effectiveAge s e.1 e.2) := by
  unfold claimOffer
  split
  · next zero => simp [zero]
  · next some => simp [Nat.pos_of_ne_zero some, eq_comm]

/-- The entries a claim chooses among, by station and then by membership. -/
def claimEntries (ps : List Station) (gs : List Group) : List (Station × Group) := ps.flatMap fun p => gs.map fun g => (p, g)

theorem pickClaim_eq (s : State) (a : Agent) : pickClaim s a =
    (bestOfList (claimOffer s) (fun b b' => decide (b'.2 < b.2))
      (claimEntries (List.finRange 15) (a.members.map Membership.group))).map Prod.fst := by
  have entries : (List.finRange 15).flatMap (fun p => a.members.map fun m => (p, m.group)) =
      claimEntries (List.finRange 15) (a.members.map Membership.group) := by
    simp [claimEntries, Function.comp_def]
  unfold pickClaim bestOfList
  rw [entries]
  congr 2
  funext held e
  by_cases zero : (peerEntry s e.1 e.2).waiting = 0
  · simp only [zero, if_true, claimOffer]
  · simp only [zero, if_false, claimOffer, decide_eq_true_eq]
    cases held <;> rfl

theorem mem_claimEntries {ps : List Station} {gs : List Group} {e : Station × Group} :
    e ∈ claimEntries ps gs ↔ e.1 ∈ ps ∧ e.2 ∈ gs := by
  obtain ⟨p, g⟩ := e
  simp [claimEntries]

/-- The place of an entry among those of its own station. -/
theorem idxOf_map_pair (p : Station) (g : Group) (gs : List Group) :
    (gs.map fun g => (p, g)).idxOf (p, g) = gs.idxOf g := by
  induction gs with
  | nil => rfl
  | cons h gs ih =>
    by_cases same : h = g
    · simp [same]
    · rw [List.map_cons, List.idxOf_cons_ne _ (by simp [same]), ih, List.idxOf_cons_ne _ same]

/-- An entry that stands before another in the list has the lower station, or the same one and the earlier membership. -/
theorem order_of_idxOf_claimEntries {ps : List Station} (ascend : ps.Pairwise (· < ·)) {gs : List Group} {p q : Station}
    {g h : Group} (inG : (p, g) ∈ claimEntries ps gs) (inH : (q, h) ∈ claimEntries ps gs)
    (first : (claimEntries ps gs).idxOf (p, g) ≤ (claimEntries ps gs).idxOf (q, h)) :
    p < q ∨ (p = q ∧ gs.idxOf g ≤ gs.idxOf h) := by
  induction ps with
  | nil => cases (mem_claimEntries.1 inG).1
  | cons p₀ ps ih =>
    obtain ⟨above, ascend⟩ := List.pairwise_cons.1 ascend
    obtain ⟨stationP, groupG⟩ := mem_claimEntries.1 inG
    obtain ⟨stationQ, groupH⟩ := mem_claimEntries.1 inH
    have entries : claimEntries (p₀ :: ps) gs = gs.map (fun g => (p₀, g)) ++ claimEntries ps gs := rfl
    have here (x : Group) (inside : x ∈ gs) : (claimEntries (p₀ :: ps) gs).idxOf (p₀, x) = gs.idxOf x := by
      rw [entries, List.idxOf_append_of_mem (List.mem_map.2 ⟨x, inside, rfl⟩), idxOf_map_pair]
    have there (r : Station) (x : Group) (other : r ≠ p₀) :
        (claimEntries (p₀ :: ps) gs).idxOf (r, x) = gs.length + (claimEntries ps gs).idxOf (r, x) := by
      have absent : (r, x) ∉ gs.map fun g => (p₀, g) := by simp [Ne.symm other]
      rw [entries, List.idxOf_append_of_notMem absent, List.length_map]
    by_cases headP : p = p₀
    · by_cases headQ : q = p₀
      · subst headP headQ
        rw [here g groupG, here h groupH] at first
        exact .inr ⟨rfl, first⟩
      · subst headP
        exact .inl (above q ((List.mem_cons.1 stationQ).resolve_left headQ))
    · have tailP := (List.mem_cons.1 stationP).resolve_left headP
      by_cases headQ : q = p₀
      · subst headQ
        rw [there p g headP, here h groupH] at first
        have inside : gs.idxOf h < gs.length := List.idxOf_lt_length_of_mem groupH
        omega
      · have tailQ := (List.mem_cons.1 stationQ).resolve_left headQ
        rw [there p g headP, there q h headQ] at first
        exact ih ascend (mem_claimEntries.2 ⟨tailP, groupG⟩) (mem_claimEntries.2 ⟨tailQ, groupH⟩) (by omega)

/-! ### The call a CLAIM draws (R161) -/

/-- What a queued slot offers to a CLAIM: its call, when it may answer it. -/
def drawOffer (s : State) (p : Station) (g : Group) (c : Slot) : Option (Slot × Call) :=
  (s.selectable c).bind fun k =>
    if k.tier ≠ 0 ∧ g ∈ s.eligibleGroups k ∧ k.declined[p] = false then some (c, k) else none

theorem pickForClaim_eq (s : State) (p : Station) (g : Group) : pickForClaim s p g =
    bestOfList (drawOffer s p g) (fun b b' => decide (b.2.arrival < b'.2.arrival)) s.queuedSlots := by
  unfold pickForClaim bestOfList
  congr 1
  funext held c
  cases selected : s.selectable c with
  | none => simp only [drawOffer, selected, Option.bind_none]
  | some k =>
    by_cases able : k.tier ≠ 0 ∧ g ∈ s.eligibleGroups k ∧ k.declined[p] = false
    · simp only [drawOffer, selected, Option.bind_some, if_pos able, decide_eq_true_eq]
      cases held <;> rfl
    · simp only [drawOffer, selected, Option.bind_some, if_neg able]

theorem drawOffer_eq_some_iff {s : State} {p : Station} {g : Group} {c : Slot} (queued : c ∈ s.queuedSlots)
    (b : Slot × Call) : drawOffer s p g c = some b ↔ b.1 = c ∧ Claimable s p g c b.2 := by
  obtain ⟨d, k⟩ := b
  simp only [drawOffer, Option.bind_eq_some_iff, Option.ite_none_right_eq_some, Option.some.injEq, Prod.mk.injEq,
    selectable_eq_some_iff, Claimable, queued, true_and]
  constructor
  · rintro ⟨j, ⟨held, waiting, fresh⟩, able, rfl, rfl⟩
    exact ⟨rfl, held, waiting, fresh, able⟩
  · rintro ⟨rfl, held, waiting, fresh, able⟩
    exact ⟨k, ⟨held, waiting, fresh⟩, able, rfl, rfl⟩

/-! ### The orders of choice -/

/-- The position of R54: nobody has a score, or nobody stands ahead of the one chosen. -/
theorem bestAgent_none {s : State} {score : Position → Nat} (nobody : bestAgent s score = none) (p : Position) :
    score p = 0 := by
  rw [bestAgent_eq] at nobody
  have quiet := (bestOfList_eq_none_iff _).1 nobody p (List.mem_finRange p)
  by_contra scored
  exact Option.some_ne_none _ (((agentOffer_eq_some_iff ..).2 ⟨scored, rfl⟩).symm.trans quiet)

theorem bestAgent_spec {s : State} {score : Position → Nat}
    (available : ∀ p, score p ≠ 0 → (s.agent p).state.available = true) {p : Position} {v : Nat}
    (best : bestAgent s score = some (p, v)) : v = score p ∧ 0 < v ∧
      ∀ q, q ≠ p → score q < v ∨ (score q = v ∧
        ∃ t t', (s.agent p).state.since = some t ∧ (s.agent q).state.since = some t' ∧ (t < t' ∨ (t = t' ∧ p < q))) := by
  rw [bestAgent_eq] at best
  obtain ⟨a, -, offered, least⟩ := bestOfList_spec (key := agentKey s) (fun x _ y _ c d offersC offersD => by
    obtain ⟨scoreX, rfl⟩ := (agentOffer_eq_some_iff ..).1 offersC
    obtain ⟨scoreY, rfl⟩ := (agentOffer_eq_some_iff ..).1 offersD
    exact ahead_iff (available x scoreX) (available y scoreY)) best
  obtain ⟨scored, same⟩ := (agentOffer_eq_some_iff ..).1 offered
  cases same
  refine ⟨rfl, Nat.pos_of_ne_zero scored, fun q other => ?_⟩
  by_cases silent : score q = 0
  · exact .inl (silent ▸ Nat.pos_of_ne_zero scored)
  obtain ⟨t, since⟩ := since_of_available (available p scored)
  obtain ⟨t', since'⟩ := since_of_available (available q silent)
  have order := least q (List.mem_finRange q) (q, score q) ((agentOffer_eq_some_iff ..).2 ⟨silent, rfl⟩)
  rw [agentKey_lt_iff, List.idxOf_finRange, List.idxOf_finRange] at order
  simp only [since, since', Option.getD_some, agentKey, toLex_inj, Prod.mk.injEq, OrderDual.toDual_inj] at order
  rcases order with (lower | ⟨tie, earlier⟩) | ⟨⟨tie, together⟩, first⟩
  · exact .inl lower
  · exact .inr ⟨tie.symm, t, t', since, since', .inl earlier⟩
  · exact .inr ⟨tie.symm, t, t', since, since', .inr ⟨together, lt_of_le_of_ne first (Ne.symm other)⟩⟩

theorem pickCall_none {s : State} {a : Agent} (none : pickCall s a = none) (c : Slot) (k : Call) : ¬ OpenTo s a c k := by
  intro openTo
  rw [pickCall_eq] at none
  have queued := openTo.1
  exact Option.some_ne_none _ (((callOffer_eq_some_iff queued (c, k)).2 ⟨rfl, openTo⟩).symm.trans
    ((bestOfList_eq_none_iff _).1 none c queued))

theorem pickCall_spec {s : State} {a : Agent} {c : Slot} {k : Call} (best : pickCall s a = some (c, k)) :
    OpenTo s a c k ∧ ∀ d j, OpenTo s a d j → k.priority < j.priority ∨ (k.priority = j.priority ∧
      (k.arrival < j.arrival ∨ (k.arrival = j.arrival ∧ s.queuedSlots.idxOf c ≤ s.queuedSlots.idxOf d))) := by
  rw [pickCall_eq] at best
  obtain ⟨x, queued, offered, least⟩ := bestOfList_spec (key := callKey) (fun _ _ _ _ b b' _ _ => by
    rw [callKey_lt_iff, decide_eq_true_eq]) best
  obtain ⟨rfl, isOpen⟩ := (callOffer_eq_some_iff queued _).1 offered
  refine ⟨isOpen, fun d j openTo => ?_⟩
  have order := least d openTo.1 (d, j) ((callOffer_eq_some_iff openTo.1 _).2 ⟨rfl, openTo⟩)
  rw [callKey_lt_iff] at order
  simp only [callKey, toLex_inj, Prod.mk.injEq] at order
  rcases order with (lower | ⟨tie, earlier⟩) | ⟨⟨tie, together⟩, first⟩
  · exact .inl lower
  · exact .inr ⟨tie, .inl earlier⟩
  · exact .inr ⟨tie, .inr ⟨together, first⟩⟩

theorem pickClaim_none {s : State} {a : Agent} (none : pickClaim s a = none) (p : Station) (m : Membership)
    (member : m ∈ a.members) : (peerEntry s p m.group).waiting = 0 := by
  rw [pickClaim_eq, Option.map_eq_none_iff] at none
  have quiet := (bestOfList_eq_none_iff _).1 none (p, m.group)
    (mem_claimEntries.2 ⟨List.mem_finRange p, List.mem_map_of_mem member⟩)
  by_contra waits
  exact Option.some_ne_none _
    (((claimOffer_eq_some_iff s (p, m.group) _).2 ⟨Nat.pos_of_ne_zero waits, rfl⟩).symm.trans quiet)

theorem pickClaim_spec {s : State} {a : Agent} {p : Station} {g : Group} (best : pickClaim s a = some (p, g)) :
    0 < (peerEntry s p g).waiting ∧ g ∈ a.members.map Membership.group ∧
      ∀ q, ∀ m ∈ a.members, 0 < (peerEntry s q m.group).waiting → effectiveAge s q m.group < effectiveAge s p g ∨
        (effectiveAge s q m.group = effectiveAge s p g ∧ (p < q ∨ (p = q ∧
          (a.members.map Membership.group).idxOf g ≤ (a.members.map Membership.group).idxOf m.group))) := by
  rw [pickClaim_eq, Option.map_eq_some_iff] at best
  obtain ⟨b, best, chosen⟩ := best
  obtain ⟨e, listed, offered, least⟩ := bestOfList_spec (key := fun b => OrderDual.toDual b.2)
    (fun _ _ _ _ c d _ _ => by simp) best
  obtain ⟨waiting, rfl⟩ := (claimOffer_eq_some_iff ..).1 offered
  cases chosen
  refine ⟨waiting, (mem_claimEntries.1 listed).2, fun q m member waits => ?_⟩
  have listedQ : (q, m.group) ∈ claimEntries (List.finRange 15) (a.members.map Membership.group) :=
    mem_claimEntries.2 ⟨List.mem_finRange q, List.mem_map_of_mem member⟩
  rcases least _ listedQ _ ((claimOffer_eq_some_iff s (q, m.group) _).2 ⟨waits, rfl⟩) with older | ⟨tie, first⟩
  · exact .inl older
  · exact .inr ⟨tie.symm, order_of_idxOf_claimEntries (List.pairwise_lt_finRange 15) listed listedQ first⟩

theorem pickForClaim_none {s : State} {p : Station} {g : Group} (none : pickForClaim s p g = none) (c : Slot)
    (k : Call) : ¬ Claimable s p g c k := by
  intro claimable
  rw [pickForClaim_eq] at none
  have queued := claimable.1
  exact Option.some_ne_none _ (((drawOffer_eq_some_iff queued (c, k)).2 ⟨rfl, claimable⟩).symm.trans
    ((bestOfList_eq_none_iff _).1 none c queued))

theorem pickForClaim_spec {s : State} {p : Station} {g : Group} {c : Slot} {k : Call}
    (best : pickForClaim s p g = some (c, k)) :
    Claimable s p g c k ∧ ∀ d j, Claimable s p g d j → k.arrival < j.arrival ∨
      (k.arrival = j.arrival ∧ s.queuedSlots.idxOf c ≤ s.queuedSlots.idxOf d) := by
  rw [pickForClaim_eq] at best
  obtain ⟨x, queued, offered, least⟩ := bestOfList_spec (key := fun b : Slot × Call => b.2.arrival)
    (fun _ _ _ _ b b' _ _ => by simp) best
  obtain ⟨rfl, claimable⟩ := (drawOffer_eq_some_iff queued _).1 offered
  exact ⟨claimable, fun d j other => least d other.1 (d, j) ((drawOffer_eq_some_iff other.1 _).2 ⟨rfl, other⟩)⟩

/-- The effective age of R140: nothing with nobody waiting, else the held age and the seconds since the receipt. -/
theorem effectiveAge_of_none_waiting {s : State} {p : Station} {g : Group} (nobody : (peerEntry s p g).waiting = 0) :
    effectiveAge s p g = 0 := by
  simp [effectiveAge, nobody]

theorem effectiveAge_of_receipt {s : State} {p : Station} {g : Group} {row : PeerRow} {t : Nat}
    (present : s.peers.rows[p] = some row) (receipt : row.receipt = some t) (waiting : 0 < (peerEntry s p g).waiting) :
    effectiveAge s p g = min 65535 ((peerEntry s p g).age + (s.now - t) / 10) := by
  simp [effectiveAge, waiting.ne', present, receipt, saturate_eq_min]

/-- Settles O37: each choice is the walk that keeps the first offer of the lowest key. -/
theorem selectionsFollowTheOrders : Obligations.SelectionsFollowTheOrders := by
  refine ⟨fun s score available => ?_, fun s k => ?_, fun s a => ?_, fun s a => ?_, fun s p g => ?_, fun s p g => ?_⟩
  · cases best : bestAgent s score with
    | none => exact bestAgent_none best
    | some b => exact bestAgent_spec available best
  · cases best : bestPeer s k with
    | none => exact bestPeer_none best
    | some b => exact bestPeer_spec best
  · cases best : pickCall s a with
    | none => exact pickCall_none best
    | some b => exact pickCall_spec best
  · cases best : pickClaim s a with
    | none => exact pickClaim_none best
    | some b => exact pickClaim_spec best
  · exact ⟨effectiveAge_of_none_waiting, fun row t present receipt => effectiveAge_of_receipt present receipt⟩
  · cases best : pickForClaim s p g with
    | none => exact pickForClaim_none best
    | some b => exact pickForClaim_spec best

end Sys2Proof.Machine
end

section
/-! PROOFS of the agent-side attempt and of what a binding, an offer and a claim change (R13, R39, R68, R69, R71 to R75, R141,
R149, R160). -/

namespace Sys2Proof.Machine

/-! ### The attempt (R71 to R75) -/

section
variable {s : State} {p : Position}

theorem readyNow_iff (st : AgentState) : st.readyNow = true ↔ ∃ t, st = .ready t := by
  cases st <;> simp [AgentState.readyNow]

theorem attemptAgent_of_unready (unready : ∀ t, (s.agent p).state ≠ .ready t) (full : Bool) :
    attemptAgent full p s = s :=
  if_neg fun ready => ((readyNow_iff _).1 ready).elim unready

theorem deferAgentAttempt_deferred (p : Position) (s : State) : deferAgentAttempt p s = { s with
    agents := alter s.agents p fun a => { a with deferred := true }
    deferrals := min 65535 (s.deferrals + 1) } := by
  rw [deferAgentAttempt, count1_eq_min]
  rfl

theorem attemptAgent_of_little_room (ready : (s.agent p).state.readyNow = true) (few : s.free < attemptRoom) (full : Bool) :
    attemptAgent full p s = deferAgentAttempt p s := by
  rw [attemptAgent, if_pos ready, if_pos few]

theorem attemptAgent_of_call (ready : (s.agent p).state.readyNow = true) (room : attemptRoom ≤ s.free) {c : Slot} {k : Call}
    (picked : pickCall s (s.agent p) = some (c, k)) (full : Bool) :
    attemptAgent full p s = bindLocal c k p (s.deferAgent p false) := by
  simp only [attemptAgent, if_pos ready, if_neg room.not_gt, picked]

theorem attemptAgent_of_no_call (ready : (s.agent p).state.readyNow = true) (room : attemptRoom ≤ s.free)
    (none : pickCall s (s.agent p) = none) (full : Bool) :
    attemptAgent full p s = if full = true then claimPart p s else s.deferAgent p false := by
  simp only [attemptAgent, if_pos ready, if_neg room.not_gt, none]

theorem claimPart_of_no_claim
    (unable : s.bus.station ≠ .active ∨ claimCapacity ≤ s.exch.claims.length ∨ pickClaim s (s.agent p) = none) :
    claimPart p s = s.deferAgent p false := by
  unfold claimPart
  split
  · next able => rw [(unable.resolve_left (not_not.2 able.1)).resolve_left able.2.not_ge]
  · rfl

theorem claimPart_of_claim (active : s.bus.station = .active) (spare : s.exch.claims.length < claimCapacity) {h : Station}
    {g : Group} (picked : pickClaim s (s.agent p) = some (h, g)) :
    claimPart p s = if s.ordinaryRoom = 0 then deferAgentAttempt p s
      else startClaim p h g (scoreIn s (s.agent p) g) (s.deferAgent p false) := by
  simp only [claimPart, if_pos (And.intro active spare), picked]

end

/-- Settles O39: the attempt by the agent's state, its room, its call and its claim. -/
theorem agentAttemptsServeTheirCallers : Obligations.AgentAttemptsServeTheirCallers := by
  refine fun s p full => ⟨fun unready => attemptAgent_of_unready unready full, fun t isReady => ?_⟩
  have ready : (s.agent p).state.readyNow = true := (readyNow_iff _).2 ⟨t, isReady⟩
  refine ⟨_, _, rfl, rfl, fun few => ?_, fun room c k picked => attemptAgent_of_call ready room picked full,
    fun room none unable => ?_, fun room none isFull active spare h g picked => ?_⟩
  · rw [attemptAgent_of_little_room ready few, deferAgentAttempt_deferred]
  · rw [attemptAgent_of_no_call ready room none]
    split
    · next isFull => exact claimPart_of_no_claim (unable.resolve_left (by simp [isFull]))
    · rfl
  · rw [attemptAgent_of_no_call ready room none, if_pos isFull, claimPart_of_claim active spare picked,
      deferAgentAttempt_deferred]
    rfl

/-! ### A local binding (R13, R68, R69) -/

/-- An agent bound by a local call: ALERTING under the call's group, with no claim record. -/
theorem bind_local {s : State} {p : Position} {r : CallRef} {t : Nat} (isLocal : s.bus.id = some r.home)
    (since : (s.agent p).state.since = some t) (g : Group) : bind p r g s = claimRemoved p { s with
      agents := alter s.agents p fun a => { a with
        state := .alerting t ⟨r, g, true⟩ (s.now + 10 * (s.groupRec g).alertTime), changed := true, deferred := false } } := by
  simp only [bind, boundState, since, Option.getD_some, isLocal, decide_true]
  rfl

theorem boundAgent_of_bound {s : State} {r : CallRef} {q : Position} (bound : (s.agent q).boundTo r = true) :
    s.boundAgent r ≠ none := fun nobody =>
  Bool.false_ne_true (((find?_finRange_eq_none_iff _).1 nobody q).symm.trans bound)

theorem bindable_iff (s : State) (p : Position) (r : CallRef) : s.bindable p r = true ↔
    (s.agent p).state.available = true ∧ ∀ q, (s.agent q).boundTo r = false := by
  simp [State.bindable, State.boundAgent]

theorem bindLocal_of_free {s : State} {c : Slot} {k : Call} {p : Position} {t : Nat} {me : Station}
    (station : s.bus.id = some me) (available : (s.agent p).state.available = true)
    (since : (s.agent p).state.since = some t) (room : 2 ≤ s.free)
    (unbound : ∀ q, (s.agent q).boundTo ⟨me, c, (s.slotRec c).gen⟩ = false) :
    bindLocal c k p s = placed [.route k.trunk me p, .alert p me k.tag] (unawaited (.watch c)
      (callBecomesDeferred c false (fun k => { k with state := .alertingLocal p }) (claimRemoved p
        { s with agents := alter s.agents p fun a =>
            { a with
              state := .alerting t ⟨⟨me, c, (s.slotRec c).gen⟩, k.group, true⟩
                (s.now + 10 * (s.groupRec k.group).alertTime)
              changed := true, deferred := false } }))) := by
  have bindable : s.bindable p ⟨me, c, (s.slotRec c).gen⟩ = true := (bindable_iff ..).2 ⟨available, unbound⟩
  simp only [bindLocal, refOf_of_id station, if_pos bindable]
  rw [bind_local station since, markCall_other _ _ _ (by simp), deferCall_unawaited, deferCall_callBecomes]
  exact place_place _ _ (Nat.le_trans room (Nat.sub_le_sub_left le_rfl _))

/-! ### An offer and its adjustment (R141, R149) -/

/-- A frame has joined the ordinary queue, and the transmitter has chosen (R125). -/
def ordinaryQueued (p : Station) (body : Body) (s : State) : State :=
  { s with bus := Bus.choose { s.bus with ordinary := s.bus.ordinary ++ [⟨toDest p, body⟩] } }

theorem queueOrdinary_of_room {s : State} (room : 0 < s.ordinaryRoom) (p : Station) (body : Body) :
    s.queueOrdinary p body = ordinaryQueued p body s :=
  if_pos room

theorem startOffer_of_room {s : State} {me : Station} (station : s.bus.id = some me) (room : 0 < s.ordinaryRoom)
    (c : Slot) (k : Call) (p : Station) (g : Group) :
    startOffer c k p g s = adjustOffer p g { unawaited (.watch c)
        (callBecomesDeferred c false (fun k => { k with state := .offered p (s.now + s.conf.offerTimeout) g }) s) with
      bus := Bus.choose { s.bus with ordinary := s.bus.ordinary ++ [⟨toDest p,
        .offer ⟨me, c, (s.slotRec c).gen⟩ g k.priority.val k.tier k.tag (min 65535 ((s.now - k.arrival) / 10))⟩] } } := by
  simp only [startOffer, refOf_of_id station, saturate_eq_min]
  rw [markCall_other _ _ _ (by simp), deferCall_unawaited, deferCall_callBecomes]
  rw [queueOrdinary_of_room (s := unawaited _ (callBecomesDeferred ..)) room]
  rfl

/-- What the offer adjustment makes of an entry (R141). -/
def offerLowered (g : Group) (e : Entry) : Entry :=
  if e.group = g then { e with ready := e.ready - 1, best := if e.ready ≤ 1 then 0 else e.best } else e

theorem adjustOffer_of_row {s : State} {p : Station} {row : PeerRow} (present : s.peers.rows[p] = some row) (g : Group) :
    adjustOffer p g s = { s with peers := { s.peers with
      rows := alter s.peers.rows p fun _ => some { row with entries := row.entries.map (offerLowered g) } } } := by
  have lowered : (fun e : Entry => if e.group = g then
      { e with ready := e.ready - 1, best := if e.ready - 1 = 0 then 0 else e.best } else e) = offerLowered g := by
    funext e
    simp only [offerLowered, Nat.sub_eq_zero_iff_le]
  simp only [adjustOffer, adjustEntry, present, lowered]
  rfl

/-! ### A claim (R160) -/

/-- The claim record is added; the agent becomes CLAIMING and its CLAIM joins the queue. -/
theorem startClaim_of_ready {s : State} {p : Position} {me : Station} {t : Nat} (station : s.bus.id = some me)
    (ready : (s.agent p).state = .ready t) (h : Station) (g : Group) (score : Nat) :
    startClaim p h g score s = (enters p (.claiming t) (s.modExch fun x =>
      { x with claims := x.claims ++ [⟨p, h, g, s.now + s.conf.claimTimeout⟩] })).queueOrdinary h (.claim g me p score) := by
  simp only [startClaim, station, ready]
  rw [enter_enters _ _ _ rfl rfl]

theorem startClaim_of_room {s : State} {p : Position} {me : Station} {t : Nat} (station : s.bus.id = some me)
    (ready : (s.agent p).state = .ready t) (room : 0 < s.ordinaryRoom) (h : Station) (g : Group) (score : Nat) :
    startClaim p h g score s = { enters p (.claiming t) s with
      exch := { s.exch with claims := s.exch.claims ++ [⟨p, h, g, s.now + s.conf.claimTimeout⟩] }
      bus := Bus.choose { s.bus with ordinary := s.bus.ordinary ++ [⟨toDest h, .claim g me p score⟩] } } := by
  rw [startClaim_of_ready station ready, queueOrdinary_of_room (s := enters _ _ (State.modExch ..)) room]
  rfl

/-- Settles O40: the equation of each start where its rule lets it be made. -/
theorem bindingsOffersAndClaimsStart : Obligations.BindingsOffersAndClaimsStart := by
  refine ⟨fun s c k p t me _ station available since room unbound =>
      bindLocal_of_free station available since room unbound,
    fun s c k p q me station bound => bindLocal_of_holder ?_ k p,
    fun s c k p me g station room => startOffer_of_room station room c k p g,
    fun s p g row present => ⟨offerLowered g, fun _ => rfl, adjustOffer_of_row present g⟩,
    fun s p h me g score t station ready room => startClaim_of_room station ready room h g score⟩
  rw [Option.isSome_iff_ne_none, State.holderOf, refOf_of_id station]
  exact boundAgent_of_bound bound

end Sys2Proof.Machine
end

section
/-! PROOFS of the exchange deadlines (R17, R40, R152, R158, R163) and of the passes and the station deadlines (R76 to R78, R130,
R131, R137). -/

namespace Sys2Proof.Machine

/-! ### The offer deadline and the answer watch (R152, R158) -/

section
variable {s : State} {c : Slot} {k : Call}

theorem exec_offerDeadline_offered (held : s.callAt c = some k) {q : Station} {d : Nat} {g : Group}
    (offered : k.state = .offered q d g) : exec (.offerDeadline c) s =
      if d ≤ s.now then .next (attend s (divertOrAttempt c k (markCleared c q s))) else .next s := by
  change execOfferDeadline c s = _
  simp only [execOfferDeadline, event_eq, held, Option.map_some, offered, clearMark_peer held, Bool.false_eq_true, if_false,
    id_eq]
  split
  · rfl
  · rw [attend_self]

theorem exec_offerDeadline_not (unoffered : ∀ k, s.callAt c = some k → ∀ q d g, k.state ≠ .offered q d g) :
    exec (.offerDeadline c) s = .next s := by
  change execOfferDeadline c s = _
  rw [execOfferDeadline, event_eq]
  cases held : s.callAt c with
  | none => exact congrArg Host.Outcome.next (attend_self s)
  | some k =>
    simp only [Option.map_some]
    cases state : k.state with
    | offered q d g => exact absurd state (unoffered k held q d g)
    | waiting | alertingLocal | alertingRemote | connected => exact congrArg Host.Outcome.next (attend_self s)

/-- Clearing the mark takes the watch off the room-wait list itself. -/
theorem markCleared_unawaited (c : Slot) (q : Station) (s : State) :
    markCleared c q (unawaited (.watch c) s) = markCleared c q s := by
  simp [markCleared, unawaited, callBecomes, List.filter_filter]

/-- An answer watch that is taken (R158). -/
theorem takeWatch_of_remote (held : s.callAt c = some k) {q : Station} {a : Position} {d : Nat}
    (remote : k.state = .alertingRemote q a d) {me : Station} (station : s.bus.id = some me) (room : 0 < s.free) :
    takeWatch c s = divertOrAttempt c k
      ((placed [.unroute k.trunk] (markCleared c q s)).reply q (.cancel ⟨me, c, (s.slotRec c).gen⟩)) := by
  simp only [takeWatch, held, refOf_of_id station, remote]
  rw [clearMark_peer held, if_neg Bool.false_ne_true, place_placed (s := markCleared c q s) _ room]

theorem exec_answerWatchExpiry_remote (held : s.callAt c = some k) {q : Station} {a : Position} {d : Nat}
    (remote : k.state = .alertingRemote q a d) : exec (.answerWatchExpiry c) s = .next (attend s (
      if d ≤ s.now then if (0 < s.free && s.mayServe (.watch c)) = true then takeWatch c (s.unawait (.watch c))
        else awaited (.watch c) s
      else s)) := by
  change execAnswerWatchExpiry c s = _
  simp only [execAnswerWatchExpiry, event_eq, held, Option.map_some, remote, await_awaited]

theorem exec_answerWatchExpiry_not (unmarked : ∀ k, s.callAt c = some k → ∀ q a d, k.state ≠ .alertingRemote q a d) :
    exec (.answerWatchExpiry c) s = .next s := by
  change execAnswerWatchExpiry c s = _
  rw [execAnswerWatchExpiry, event_eq]
  cases held : s.callAt c with
  | none => exact congrArg Host.Outcome.next (attend_self s)
  | some k =>
    simp only [Option.map_some]
    cases state : k.state with
    | alertingRemote q a d => exact absurd state (unmarked k held q a d)
    | waiting | alertingLocal | offered | connected => exact congrArg Host.Outcome.next (attend_self s)

end

/-! ### The claim deadline (R163) -/

theorem endClaim_of_claiming {s : State} {p : Position} {t : Nat} (claiming : (s.agent p).state = .claiming t) :
    endClaim p s = entersReady p t (claimRemoved p s) := by
  simp only [endClaim, claiming, removeClaim_removed, enter_ready]

/-- Settles O43. -/
theorem exchangeDeadlinesEndTheExchange : Obligations.ExchangeDeadlinesEndTheExchange := by
  refine ⟨fun s c k held => ⟨fun q d g offered => exec_offerDeadline_offered held offered,
      fun unoffered => exec_offerDeadline_not fun j held' => by cases held.symm.trans held'; exact unoffered,
      fun q a d me remote station => ⟨fun early => ?_, fun reached full => ?_, fun reached room => ?_⟩,
      fun unmarked => exec_answerWatchExpiry_not fun j held' => by cases held.symm.trans held'; exact unmarked⟩,
    fun s c empty => ⟨exec_offerDeadline_not fun k held => (nomatch empty.symm.trans held),
      exec_answerWatchExpiry_not fun k held => (nomatch empty.symm.trans held)⟩,
    fun s p => ⟨fun none => ?_, fun r claim => ⟨fun early => ?_, fun t reached claiming => ?_⟩⟩⟩
  · rw [exec_answerWatchExpiry_remote held remote, if_neg early.not_ge, attend_self]
  · rw [exec_answerWatchExpiry_remote held remote, if_pos reached, if_neg (by simp [full]), attend_awaited]
  · rw [exec_answerWatchExpiry_remote held remote, if_pos reached]
    split
    · next served =>
      have turn : ¬ waitsBehind s (.watch c) := (mayServe_iff _ _).1 (Bool.and_eq_true_iff.1 served).2
      rw [if_neg turn, unawait_unawaited,
        takeWatch_of_remote (s := unawaited (.watch c) s) held remote station room, markCleared_unawaited]
      rfl
    · next unserved =>
      have behind : waitsBehind s (.watch c) := by
        by_contra turn
        exact unserved (by simp [room, mayServe_of_head turn])
      rw [if_pos behind, awaited_of_waits behind.1, attend_self]
  · change execClaimDeadline p s = _
    simp only [execClaimDeadline, event_eq, none, attend_self]
  · change execClaimDeadline p s = _
    simp only [execClaimDeadline, event_eq, claim, if_neg early.not_ge, attend_self]
  · change execClaimDeadline p s = _
    simp only [execClaimDeadline, event_eq, claim, if_pos reached, endClaim_of_claiming claiming]

/-! ### The retry pass (R76, R77) -/

theorem anyDeferred_iff (s : State) : s.anyDeferred = true ↔
    (∃ c, (s.slotRec c).deferred = true) ∨ ∃ p, (s.agent p).deferred = true := by
  simp [State.anyDeferred]

theorem retryIfRoom_of_idle {s : State}
    (idle : s.free < 8 ∨ ((∀ c, (s.slotRec c).deferred = false) ∧ ∀ p, (s.agent p).deferred = false)) : retryIfRoom s = s := by
  refine if_neg fun due => ?_
  obtain ⟨room, marked⟩ := Bool.and_eq_true_iff.1 due
  rcases idle with few | ⟨noCall, noAgent⟩
  · exact few.not_ge (of_decide_eq_true room)
  · rcases (anyDeferred_iff s).1 marked with ⟨c, deferred⟩ | ⟨p, deferred⟩
    · exact Bool.false_ne_true ((noCall c).symm.trans deferred)
    · exact Bool.false_ne_true ((noAgent p).symm.trans deferred)

theorem retryIfRoom_of_due {s : State} (room : 8 ≤ s.free) (marked : s.anyDeferred = true) : retryIfRoom s = retryPass s :=
  if_pos (by simp [marked, attemptRoom, room])

/-! ### The station deadlines (R130, R131, R137) -/

theorem probe_of_empty {s : State} (empty : s.bus.slot = none) : probe s = { summaryPlaced s with
    bus := { (summaryPlaced s).bus with station := .busFault (s.now + s.conf.slow) } } := by
  rw [probe, if_pos (by simp [empty]), placeSummary_placed]
  rfl

theorem probe_of_taken {s : State} (taken : s.bus.slot ≠ none) :
    probe s = { s with bus := { s.bus with station := .busFault (s.now + s.conf.slow) } } := by
  rw [probe, if_neg (by simpa using taken)]
  rfl

theorem losePeer_of_row {s : State} {p : Station} {row : PeerRow} (present : s.peers.rows[p] = some row) :
    losePeer s p = { s with peers :=
      { rows := alter s.peers.rows p fun _ => none, changed := s.peers.changed.set p.val true } } := by
  rw [losePeer, if_pos (by simp [present])]
  rfl

theorem exec_probeDeadline_of_busFault {s : State} {d : Nat} (isolated : s.bus.station = .busFault d) :
    exec .probeDeadline s = .next (attend s (if d ≤ s.now then probe s else s)) := by
  change execProbeDeadline s = _
  simp only [execProbeDeadline, event_eq, isolated]

theorem exec_absenceDeadline_of_row {s : State} {p : Station} {row : PeerRow} (present : s.peers.rows[p] = some row) :
    exec (.absenceDeadline p) s = .next (attend s (if row.absence ≤ s.now then losePeer s p else s)) := by
  change execAbsenceDeadline p s = _
  simp only [execAbsenceDeadline, event_eq, present]

/-- Settles O44. -/
theorem passesAndStationDeadlines : Obligations.PassesAndStationDeadlines := by
  refine ⟨fun s => ⟨retryIfRoom_of_idle, rfl, fun room marked => ?_⟩,
    fun s => ⟨fun d joining => ?_, fun unjoined => ?_, fun d isolated => ⟨fun early => ?_, fun reached empty => ?_,
      fun reached taken => ?_⟩, fun connected => ?_⟩,
    fun s p => ⟨fun row present reached => ?_, fun undue => ?_⟩⟩
  · rw [retryIfRoom_of_due room ((anyDeferred_iff s).2 marked)]
    rfl
  · change execJoinDeadline s = _
    simp only [execJoinDeadline, event_eq, joining]
    split
    · rfl
    · rw [attend_self]
  · change execJoinDeadline s = _
    rw [execJoinDeadline, event_eq]
    cases state : s.bus.station with
    | joining d => exact absurd state (unjoined d)
    | starting | unconfigured | active | busFault | duplicateId => exact congrArg Host.Outcome.next (attend_self s)
  · rw [exec_probeDeadline_of_busFault isolated, if_neg early.not_ge, attend_self]
  · rw [exec_probeDeadline_of_busFault isolated, if_pos reached, probe_of_empty empty]
    exact congrArg Host.Outcome.next (attend_quiet rfl rfl rfl rfl)
  · rw [exec_probeDeadline_of_busFault isolated, if_pos reached, probe_of_taken taken]
    exact congrArg Host.Outcome.next (attend_quiet rfl rfl rfl rfl)
  · change execProbeDeadline s = _
    rw [execProbeDeadline, event_eq]
    cases state : s.bus.station with
    | busFault d => exact absurd state (connected d)
    | starting | unconfigured | active | joining | duplicateId => exact congrArg Host.Outcome.next (attend_self s)
  · rw [exec_absenceDeadline_of_row present, if_pos reached, losePeer_of_row present]
  · cases present : s.peers.rows[p] with
    | none =>
      change execAbsenceDeadline p s = _
      simp only [execAbsenceDeadline, event_eq, present, attend_self]
    | some row => rw [exec_absenceDeadline_of_row present, if_neg (undue row present).not_ge, attend_self]

end Sys2Proof.Machine
end

section
/-! PROOFS of the transmitter, its collisions and the entry to ISOLATED (R118 to R121, R125 to R127, R131, R132, R138, R146). -/

namespace Sys2Proof.Machine

/-! ### Entry to ISOLATED (R127, R132, R138) -/

/-- The Peer View with the stations of a list absent: the rows that were there join the changed set. -/
def peersLost (ps : List Station) (v : PeerView) : PeerView where
  rows := Vector.ofFn fun i => if i ∈ ps then none else v.rows[i]
  changed := Vector.ofFn fun i => v.changed[i] || (decide (i ∈ ps) && v.rows[i].isSome)

theorem peerView_ext {v w : PeerView} (rows : ∀ i : Station, v.rows[i.val] = w.rows[i.val])
    (changed : ∀ i : Station, v.changed[i.val] = w.changed[i.val]) : v = w := by
  obtain ⟨vRows, vChanged⟩ := v
  obtain ⟨wRows, wChanged⟩ := w
  exact congrArg₂ PeerView.mk (Vector.ext fun i hi => rows ⟨i, hi⟩) (Vector.ext fun i hi => changed ⟨i, hi⟩)

theorem peersLost_rows (ps : List Station) (v : PeerView) (i : Station) :
    (peersLost ps v).rows[i.val] = if i ∈ ps then none else v.rows[i.val] := by
  simp [peersLost]

theorem peersLost_changed (ps : List Station) (v : PeerView) (i : Station) :
    (peersLost ps v).changed[i.val] = (v.changed[i.val] || (decide (i ∈ ps) && v.rows[i.val].isSome)) := by
  simp [peersLost]

theorem peersLost_nil (v : PeerView) : peersLost [] v = v :=
  peerView_ext (fun i => by simp [peersLost_rows]) fun i => by simp [peersLost_changed]

theorem peersLost_peersLost (p : Station) (ps : List Station) (v : PeerView) :
    peersLost ps (peersLost [p] v) = peersLost (p :: ps) v := by
  refine peerView_ext (fun i => ?_) fun i => ?_
  · by_cases own : i = p <;> simp [peersLost_rows, own]
  · by_cases own : i = p <;> simp [peersLost_rows, peersLost_changed, own]

theorem losePeer_of_none {s : State} {p : Station} (absent : s.peers.rows[p] = none) : losePeer s p = s :=
  if_neg (by simp [absent])

theorem losePeer_lost (s : State) (p : Station) : losePeer s p = { s with peers := peersLost [p] s.peers } := by
  cases present : s.peers.rows[p.val] with
  | none =>
    have same : peersLost [p] s.peers = s.peers := by
      refine peerView_ext (fun i => ?_) fun i => ?_
      · by_cases own : i = p <;> simp [peersLost_rows, own, present]
      · by_cases own : i = p <;> simp [peersLost_changed, own, present]
    rw [losePeer_of_none present, same]
  | some row =>
    have view : peersLost [p] s.peers =
        { rows := alter s.peers.rows p fun _ => none, changed := s.peers.changed.set p.val true } := by
      refine peerView_ext (fun i => ?_) fun i => ?_
      · simp [peersLost_rows, Fin.ext_iff, eq_comm]
      · by_cases own : i = p
        · simp [peersLost_changed, own, present]
        · have apart : p.val ≠ i.val := fun equal => own (Fin.ext equal.symm)
          simp [peersLost_changed, own, apart]
    rw [losePeer_of_row present, view]

theorem foldl_losePeer (ps : List Station) (s : State) :
    ps.foldl losePeer s = { s with peers := peersLost ps s.peers } := by
  induction ps generalizing s with
  | nil => rw [peersLost_nil]; rfl
  | cons p ps ih => rw [List.foldl_cons, ih, losePeer_lost, ← peersLost_peersLost p ps s.peers]

theorem clearPeers_cleared (s : State) : clearPeers s = { s with peers :=
    { rows := Vector.replicate 15 none
      changed := Vector.ofFn fun i => s.peers.changed[i] || s.peers.rows[i].isSome } } := by
  have cleared : peersLost (List.finRange 15) s.peers =
      { rows := Vector.replicate 15 none
        changed := Vector.ofFn fun i => s.peers.changed[i] || s.peers.rows[i].isSome } := by
    exact peerView_ext (fun i => by simp [peersLost_rows]) fun i => by simp [peersLost_changed]
  rw [clearPeers, foldl_losePeer, cleared]

/-- Entry to ISOLATED, but for the Peer View. -/
def abandoned (st : StationState) (cause : IsolationCause) (s : State) : State :=
  { s with
    bus := Bus.isolate st s.bus
    port := { s.port with isolated := some cause }
    builder := { s.builder with period := none, hold := none } }

theorem Bus.isolate_abandons (st : StationState) (b : Bus) : Bus.isolate st b = { b with
    station := st, inHand := none, attempts := 0, backoff := none, line := none
    replies := [], ordinary := [], slot := none, beside := none
    dropped := min 65535 (b.dropped + (b.replies.length + b.ordinary.length +
      if b.slot.isSome = true then 1 else 0)) } := by
  rw [Bus.isolate, countBy_eq_min]
  rfl

/-- Settles O47: the entry by its cause, then the pass for the ordinary frames abandoned. -/
theorem isolationAbandonsTheQueues : Obligations.IsolationAbandonsTheQueues := by
  refine fun s => ⟨fun st cause => abandoned st cause s, fun st cause => ?_, rfl, ?_,
    fun cause => ⟨fun empty => ?_, fun queued => ?_⟩⟩
  · simp only [abandoned, Bus.isolate_abandons]
  · rw [enterIsolated_busFault, clearPeers_cleared]
    rfl
  · rw [isolate, if_pos (by simp [empty])]
  · rw [isolate, if_neg (by simpa using queued)]

/-! ### The choice, the queues and the attempt (R118, R119, R125, R126) -/

theorem Bus.takeSummary_of_attempt {b : Bus} (inHand : b.inHand = some .summary) (line : b.line ≠ none) (es : List Entry) :
    Bus.takeSummary es b = { b with beside := some es } :=
  if_pos ⟨inHand, Option.isSome_iff_ne_none.2 line⟩

theorem Bus.takeSummary_of_no_attempt {b : Bus} (idle : b.inHand ≠ some .summary ∨ b.line = none) (es : List Entry) :
    Bus.takeSummary es b = { b with slot := some es } := by
  refine if_neg fun attempt => ?_
  rcases idle with other | silent
  · exact other attempt.1
  · simp [silent] at attempt

theorem Bus.choose_of_inHand {b : Bus} (held : b.inHand ≠ none) : Bus.choose b = b := by
  rcases Bus.choose_cases b with same | ⟨idle, -⟩
  · exact same
  · exact absurd idle held

/-- The queue the transmitter takes from is in hand, with no attempt made yet. -/
def Bus.taking (l : Lane) (b : Bus) : Bus := { b with inHand := some l, attempts := 0, backoff := none }

theorem Bus.choose_of_idle {b : Bus} (idle : b.inHand = none) : Bus.choose b =
    if b.replies ≠ [] ∧ b.station.sendsReplies = true then Bus.taking .reply b
    else if b.ordinary ≠ [] ∧ b.station.sendsOrdinary = true then Bus.taking .ordinary b
    else if b.slot.isSome = true ∧ b.station.sendsSummaries = true then Bus.taking .summary b else b := by
  have taken : Bus.choose b = (b.nextLane.map fun l => Bus.taking l b).getD b := by
    simp only [Bus.choose, idle]
    cases b.nextLane <;> rfl
  rw [taken]
  simp only [Bus.nextLane, Bool.and_eq_true, Bool.not_eq_true', List.isEmpty_eq_false_iff, ne_eq]
  split
  · rfl
  · split
    · rfl
    · split <;> rfl

theorem reply_of_room {s : State} (sends : s.bus.station.sendsReplies = true) (fits : s.bus.replies.length < 8)
    (q : Station) (body : Body) :
    s.reply q body = { s with bus := Bus.choose { s.bus with replies := s.bus.replies ++ [⟨toDest q, body⟩] } } :=
  if_pos (by rw [replyRoom_of_sendsReplies sends]; omega)

theorem reply_of_no_room {s : State} (full : ¬ (s.bus.station.sendsReplies = true ∧ s.bus.replies.length < 8))
    (q : Station) (body : Body) :
    s.reply q body = { s with bus := { s.bus with repliesLost := min 65535 (s.bus.repliesLost + 1) } } := by
  have none : ¬ 0 < s.replyRoom := fun room => full <| by
    by_cases sends : s.bus.station.sendsReplies = true
    · rw [replyRoom_of_sendsReplies sends] at room
      exact ⟨sends, by omega⟩
    · rw [State.replyRoom, if_neg sends] at room
      exact absurd room (lt_irrefl 0)
  rw [← count1_eq_min]
  exact if_neg none

theorem Bus.attempt_of_none {b : Bus} (none : b.inHand = none ∨ b.line ≠ none) (slots : Nat) : b.attempt slots = b := by
  unfold Bus.attempt
  split
  · next inHand line => simp [inHand, line] at none
  · rfl

section
variable {b : Bus} {l : Lane} {slots : Nat}

theorem Bus.attempt_begins {f : OutFrame} {me : Station} (inHand : b.inHand = some l) (quiet : b.line = none)
    (head : b.headOf l = some f) (station : b.id = some me) (run : b.backoff.getD 0 ≤ slots) :
    b.attempt slots = { b with backoff := none, line := some ⟨me, f.dest, f.body⟩, sentFirstByte := true } := by
  have sends : b.toSend l = some ⟨me, f.dest, f.body⟩ := (Bus.toSend_eq_some b l _).2 ⟨station, head⟩
  simp only [Bus.attempt, inHand, quiet, if_pos run, sends]
  rfl

theorem Bus.attempt_waits {n : Nat} (inHand : b.inHand = some l) (quiet : b.line = none) (backoff : b.backoff = some n)
    (short : slots < n) : b.attempt slots = { b with backoff := some (n - slots) } := by
  have waits : ¬ (some n).getD 0 ≤ slots := short.not_ge
  simp only [Bus.attempt, inHand, quiet, backoff, if_neg waits, Option.map_some]

end

theorem exec_busAttempt (s : State) (slots : Nat) :
    exec (.busAttempt slots) s = .next { s with bus := s.bus.attempt slots } :=
  congrArg Host.Outcome.next (attend_quiet rfl rfl rfl rfl)

/-! ### A sent frame (R119, R131, R146) -/

/-- The bus when the frame of a lane has been sent. -/
theorem Bus.sent_eq (l : Lane) (b : Bus) : Bus.sent l b = { b with
    replies := if l = .reply then b.replies.tail else b.replies
    ordinary := if l = .ordinary then b.ordinary.tail else b.ordinary
    slot := if l = .summary then b.beside else b.slot
    beside := if l = .summary then none else b.beside
    inHand := none, attempts := 0, backoff := none, line := none, sentFirstByte := false, dropRun := 0
    framesSent := min 65535 (b.framesSent + 1) } := by
  rw [← count1_eq_min]
  cases l <;> rfl

theorem noteSent_modBus (body : Body) (s : State) (g : Bus → Bus) :
    noteSent body (s.modBus g) = { noteSent body s with bus := g s.bus } := by
  cases body <;> rfl

/-- What stays as it was when a frame's content is noted. -/
theorem noteSent_kept (body : Body) (s : State) : (noteSent body s).time = s.time ∧ (noteSent body s).agents = s.agents ∧
    (noteSent body s).peers = s.peers ∧ (noteSent body s).port = s.port ∧ (noteSent body s).cfg = s.cfg := by
  cases body <;> exact ⟨rfl, rfl, rfl, rfl, rfl⟩

theorem exec_frameSent {s : State} {l : Lane} {f : Frame} (inHand : s.bus.inHand = some l) (line : s.bus.line = some f) :
    exec .frameSent s = .next (attend s (afterLeaving l
      (rejoin { noteSent f.body s with bus := Bus.sent l s.bus }).choose)) := by
  change execFrameSent s = _
  simp only [execFrameSent, event_eq, inHand, line, frameSent, noteSent_modBus]

theorem exec_frameSent_of_none {s : State} (none : s.bus.inHand = none ∨ s.bus.line = none) :
    exec .frameSent s = .next s := by
  change execFrameSent s = _
  rw [execFrameSent, event_eq]
  split
  · next inHand line => simp [inHand, line] at none
  · rw [attend_self]

theorem rejoin_of_connected {s : State} (connected : ∀ d, s.bus.station ≠ .busFault d) : rejoin s = s := by
  unfold rejoin
  split
  · next isolated => exact absurd isolated (connected _)
  all_goals rfl

theorem rejoin_of_busFault {s : State} {d : Nat} (isolated : s.bus.station = .busFault d) :
    rejoin s = startBrisk (enterJoining s) := by
  simp only [rejoin, isolated]

/-- A sent probe enters JOINING and starts the ladder at BRISK; then the transmitter chooses. -/
theorem rejoined_eq (s : State) : (startBrisk (enterJoining s)).choose = { s with
    bus := Bus.choose { s.bus with station := .joining (s.now + s.conf.joinInterval), dropRun := 0 }
    builder := { s.builder with
      cadence := .brisk, hold := some (s.now + s.conf.briskHold), period := some (s.now + s.conf.brisk) } } := rfl

/-- Noting what was sent and changing the bus or the cadence leaves the attention line. -/
theorem attend_noteSent (s : State) (body : Body) (bus : Bus) (builder : Builder) :
    attend s { noteSent body s with bus, builder } = { noteSent body s with bus, builder } := by
  obtain ⟨time, agents, peers, port, -⟩ := noteSent_kept body s
  exact attend_quiet (congrArg Timebase.clockLoss time) agents peers port

/-- Settles O45. -/
theorem theTransmitterSendsInOrder : Obligations.TheTransmitterSendsInOrder := by
  refine ⟨fun b es => ⟨fun inHand line => Bus.takeSummary_of_attempt inHand line es,
      fun idle => Bus.takeSummary_of_no_attempt idle es⟩,
    fun b => ⟨Bus.choose_of_inHand, fun idle => ⟨fun l => b.taking l, fun _ => rfl, Bus.choose_of_idle idle⟩⟩,
    fun s q body => ?_, fun b => ⟨rfl, rfl, rfl⟩,
    fun s slots => ⟨fun none => ?_, fun l f me inHand quiet head station => ⟨fun run => ?_, fun n backoff short => ?_⟩⟩,
    fun s => exec_frameSent_of_none, fun s l f inHand line => ?_⟩
  · split
    · next room => exact reply_of_room room.1 room.2 q body
    · next full => exact reply_of_no_room full q body
  · rw [exec_busAttempt, Bus.attempt_of_none none]
  · have reached : s.bus.backoff.getD 0 ≤ slots := by
      rcases run with none | ⟨n, backoff, enough⟩
      · simp [none]
      · simpa [backoff] using enough
    rw [exec_busAttempt, Bus.attempt_begins inHand quiet head station reached]
  · rw [exec_busAttempt, Bus.attempt_waits inHand quiet backoff short]
  · have isolatedStill (d : Nat) : (Bus.sent l s.bus).station = .busFault d ↔ s.bus.station = .busFault d := by
      rw [Bus.sent_eq]
    refine ⟨_, noteSent f.body s, Bus.sent_eq l s.bus, ?_, fun connected notOrdinary => ?_,
      fun connected ordinary => ?_, fun d isolated summary => ?_⟩
    · cases f.body <;> rfl
    · rw [exec_frameSent inHand line, rejoin_of_connected (by simpa [isolatedStill] using connected),
        afterLeaving, if_neg notOrdinary]
      exact congrArg Host.Outcome.next (attend_noteSent s f.body _ _)
    · rw [exec_frameSent inHand line, rejoin_of_connected (by simpa [isolatedStill] using connected),
        afterLeaving, if_pos ordinary]
      rfl
    · rw [exec_frameSent inHand line, rejoin_of_busFault ((isolatedStill d).2 isolated), afterLeaving,
        if_neg (by simp [summary]), rejoined_eq]
      have now : State.now { noteSent f.body s with bus := Bus.sent l s.bus } = s.now :=
        congrArg Timebase.ds (noteSent_kept f.body s).1
      have conf : State.conf { noteSent f.body s with bus := Bus.sent l s.bus } = s.conf := by
        rw [State.conf, State.conf, ← (noteSent_kept f.body s).2.2.2.2]
      rw [now, conf]
      exact congrArg Host.Outcome.next (attend_noteSent s f.body _ _)

/-! ### Collisions (R120, R121, R126, R127) -/

theorem Bus.renew_eq (b : Bus) : b.renew = { b with
    slot := if b.beside.isSome = true then b.beside else b.slot, beside := none } := by
  cases beside : b.beside <;> simp [Bus.renew, beside]

theorem exec_collision {s : State} {l : Lane} {f : Frame} (inHand : s.bus.inHand = some l) (line : s.bus.line = some f) :
    exec .collision s = .next (attend s (collide l s)) := by
  change execCollision s = _
  simp only [execCollision, event_eq, inHand, line]

theorem exec_collision_of_none {s : State} (none : s.bus.inHand = none ∨ s.bus.line = none) :
    exec .collision s = .next s := by
  change execCollision s = _
  rw [execCollision, event_eq]
  split
  · next inHand line => simp [inHand, line] at none
  · rw [attend_self]

/-- A collision that is not the last backs off; new content stands in for the old. -/
def Bus.backedOff (l : Lane) (v : Half) (b : Bus) : Bus :=
  { b with
    line := none, collisions := min 65535 (b.collisions + 1), attempts := b.attempts + 1, rng := some (nextRandom v)
    backoff := some ((nextRandom v).toNat % 2 ^ min (b.attempts + 1) 8)
    slot := if l = .summary ∧ b.beside.isSome = true then b.beside else b.slot
    beside := if l = .summary then none else b.beside }

theorem Bus.backOff_collide (l : Lane) {v : Half} {b : Bus} (rng : b.rng = some v) :
    (if l = .summary then b.collide.renew else b.collide).backOff = b.backedOff l v := by
  rw [Bus.backedOff, ← count1_eq_min]
  cases l with
  | summary => simp [Bus.renew_eq, Bus.backOff, Bus.collide, rng]
  | reply | ordinary => simp [Bus.backOff, Bus.collide, rng]

theorem collide_of_early {s : State} {v : Half} (rng : s.bus.rng = some v) (early : s.bus.attempts + 1 < 16) (l : Lane) :
    collide l s = { s with bus := s.bus.backedOff l v } := by
  have notLast : ¬ lastAttempt ≤ (s.modBus Bus.collide).bus.attempts := early.not_ge
  rw [collide, if_neg notLast, ← Bus.backOff_collide l rng]
  rfl

theorem collide_of_last {s : State} (last : 16 ≤ s.bus.attempts + 1) (l : Lane) :
    collide l s = dropFrame l (s.modBus Bus.collide) :=
  if_pos last

/-- The bus when the frame of a lane has been dropped at a collision. -/
theorem Bus.drop_collide (l : Lane) (b : Bus) : Bus.drop l b.collide = { b with
    line := none, collisions := min 65535 (b.collisions + 1)
    replies := if l = .reply then b.replies.tail else b.replies
    ordinary := if l = .ordinary then b.ordinary.tail else b.ordinary
    slot := if l = .summary then b.beside else b.slot
    beside := if l = .summary then none else b.beside
    inHand := none, attempts := 0, backoff := none
    dropped := min 65535 (b.dropped + 1)
    dropRun := if b.station.sendsReplies = true then b.dropRun + 1 else b.dropRun } := by
  rw [← count1_eq_min, ← count1_eq_min]
  cases l <;> rfl

theorem dropFrame_of_third {s : State} {l : Lane}
    (third : s.bus.station.sendsReplies = true ∧ 3 ≤ (Bus.drop l s.bus).dropRun) : dropFrame l s =
      if s.bus.ordinary.isEmpty = true then enterIsolated .busFault (s.modBus (Bus.drop l))
      else retryIfRoom (enterIsolated .busFault (s.modBus (Bus.drop l))) :=
  if_pos third

theorem dropFrame_of_more {s : State} {l : Lane}
    (more : ¬ (s.bus.station.sendsReplies = true ∧ 3 ≤ (Bus.drop l s.bus).dropRun)) :
    dropFrame l s = afterLeaving l (s.modBus (Bus.drop l)).choose :=
  if_neg more

theorem nextRandom_ne_zero {v : Half} (nonzero : v ≠ 0#16) : nextRandom v ≠ 0#16 := by
  intro zero
  have bits (i : Nat) : (v <<< 1).getLsbD i = false ∧ (if v.getLsbD 15 ^^ v.getLsbD 13 ^^ v.getLsbD 12 ^^ v.getLsbD 10
      then 1#16 else 0#16 : Half).getLsbD i = false := by
    have bit : (nextRandom v).getLsbD i = false := by rw [zero]; simp
    simpa [nextRandom] using bit
  have low (i : Nat) (below : i < 15) : v.getLsbD i = false := by
    have shifted := (bits (i + 1)).1
    rw [BitVec.getLsbD_shiftLeft] at shifted
    simpa only [show i + 1 < 16 by omega, show ¬ i + 1 < 1 by omega, decide_true, decide_false, Bool.not_false,
      Bool.true_and, Nat.add_sub_cancel] using shifted
  have top : v.getLsbD 15 = false := by
    have fed := (bits 0).2
    rw [low 13 (by omega), low 12 (by omega), low 10 (by omega)] at fed
    cases high : v.getLsbD 15 with
    | false => rfl
    | true => simp [high] at fed
  refine nonzero (BitVec.eq_of_getLsbD_eq fun i below => ?_)
  rw [BitVec.getLsbD_zero]
  rcases Nat.lt_succ_iff_lt_or_eq.1 below with lower | rfl
  · exact low i lower
  · exact top

theorem seedRandom_ne_zero (seed : Half) (me : Station) : seedRandom seed me ≠ 0#16 := by
  unfold seedRandom
  split
  · decide
  · next nonzero => exact nonzero

/-- Settles O46. -/
theorem collisionsBackOffAndDrop : Obligations.CollisionsBackOffAndDrop := by
  refine ⟨fun s l f v inHand line rng => ⟨_, rfl, fun early => ⟨_, Nat.mod_lt _ (Nat.two_pow_pos _), rfl, ?_⟩,
    fun last => ⟨_, Bus.drop_collide l s.bus, fun stays => ?_, fun isolates => ?_⟩⟩, fun s => exec_collision_of_none,
    fun v => nextRandom_ne_zero, seedRandom_ne_zero⟩
  · rw [exec_collision inHand line, collide_of_early rng early]
    exact congrArg Host.Outcome.next (attend_quiet rfl rfl rfl rfl)
  · rw [exec_collision inHand line, collide_of_last last, dropFrame_of_more (s := s.modBus Bus.collide) stays, afterLeaving]
    rfl
  · rw [exec_collision inHand line, collide_of_last last, dropFrame_of_third (s := s.modBus Bus.collide) isolates]
    simp only [List.isEmpty_iff]
    rfl

end Sys2Proof.Machine
end

section
/-! PROOFS of the tests every received frame meets, in their order (R122 to R124, R132, R135, R148). -/

namespace Sys2Proof.Machine

/-! ### A field out of range (tests 6 and 7 of R123) -/

theorem inRange_of_le {n k : Nat} (beyond : n ≤ k) : inRange n k = none := dif_neg beyond.not_gt

theorem atMost_of_lt {m k : Nat} (beyond : m < k) : atMost m k = none := if_neg beyond.not_ge

theorem atMost_eq_some_iff {m k n : Nat} : atMost m k = some n ↔ k ≤ m ∧ n = k := by
  rw [atMost, Option.ite_none_right_eq_some, Option.some.injEq, eq_comm (a := k)]

theorem refIn_of_outside {r : RawRef} (outside : RefOutside r) : refIn r = none := by
  rcases outside with home | slot | gen
  · simp [refIn, inRange_of_le home]
  · simp [refIn, inRange_of_le slot]
  · simp [refIn, inRange_of_le gen]

/-- An entry of a SUMMARY with a figure out of range (R122). -/
abbrev EntryOutside (e : RawEntry) : Prop :=
  16 ≤ e.group ∨ 48 < e.ready ∨ 35495 < e.best ∨ 64 < e.waiting ∨ 65535 < e.age

theorem entryIn_of_outside {e : RawEntry} (outside : EntryOutside e) : entryIn e = none := by
  rcases outside with group | ready | best | waiting | age
  · simp [entryIn, inRange_of_le group]
  · simp [entryIn, atMost_of_lt ready]
  · simp [entryIn, atMost_of_lt best]
  · simp [entryIn, atMost_of_lt waiting]
  · simp [entryIn, atMost_of_lt age]

theorem entriesIn_of_outside {es : List RawEntry} {e : RawEntry} (inside : e ∈ es) (outside : EntryOutside e) :
    entriesIn es = none := by
  induction es with
  | nil => cases inside
  | cons x es ih =>
    rcases List.mem_cons.1 inside with rfl | later
    · simp [entriesIn, entryIn_of_outside outside]
    · simp [entriesIn, ih later]

theorem summaryIn_of_outside {es : List RawEntry} (outside : 16 < es.length ∨ ∃ e ∈ es, EntryOutside e) :
    summaryIn es = none := by
  rcases outside with many | ⟨e, inside, outside⟩
  · exact if_neg many.not_ge
  · simp [summaryIn, entriesIn_of_outside inside outside]

section
variable {r : RawRef} {g st p n t age : Nat}

theorem offerIn_of_outside (outside : RefOutside r ∨ 16 ≤ g ∨ 255 < n ∨ 3 ≤ t ∨ 65535 < age) (tag : Half) :
    offerIn r g n t tag age = none := by
  rcases outside with ref | group | priority | tier | age
  · simp [offerIn, refIn_of_outside ref]
  · simp [offerIn, inRange_of_le group]
  · simp [offerIn, atMost_of_lt priority]
  · simp [offerIn, inRange_of_le tier]
  · simp [offerIn, atMost_of_lt age]

theorem claimIn_of_outside (outside : 16 ≤ g ∨ 15 ≤ st ∨ 48 ≤ p ∨ 35495 < n) : claimIn g st p n = none := by
  rcases outside with group | station | position | score
  · simp [claimIn, inRange_of_le group]
  · simp [claimIn, inRange_of_le station]
  · simp [claimIn, inRange_of_le position]
  · simp [claimIn, atMost_of_lt score]

theorem acceptIn_of_outside (outside : RefOutside r ∨ 48 ≤ p ∨ 35495 < n) : acceptIn r p n = none := by
  rcases outside with ref | position | score
  · simp [acceptIn, refIn_of_outside ref]
  · simp [acceptIn, inRange_of_le position]
  · simp [acceptIn, atMost_of_lt score]

theorem reasonIn_of_outside (outside : n = 0 ∨ 3 < n) : reasonIn n = none := by
  unfold reasonIn
  split
  · omega
  · omega
  · omega
  · rfl

theorem declineIn_of_outside (outside : RefOutside r ∨ n = 0 ∨ 3 < n) : declineIn r n = none := by
  rcases outside with ref | reason
  · simp [declineIn, refIn_of_outside ref]
  · simp [declineIn, reasonIn_of_outside reason]

theorem cancelIn_of_outside (outside : RefOutside r) : cancelIn r = none := by
  simp [cancelIn, refIn_of_outside outside]

theorem answeredIn_of_outside (outside : RefOutside r ∨ 48 ≤ p) : answeredIn r p = none := by
  rcases outside with ref | position
  · simp [answeredIn, refIn_of_outside ref]
  · simp [answeredIn, inRange_of_le position]

theorem returnedIn_of_outside (outside : RefOutside r ∨ 48 ≤ p) : returnedIn r p = none := by
  rcases outside with ref | position
  · simp [returnedIn, refIn_of_outside ref]
  · simp [returnedIn, inRange_of_le position]

theorem nocallIn_of_outside (outside : 16 ≤ g ∨ 48 ≤ p) : nocallIn g p = none := by
  rcases outside with group | position
  · simp [nocallIn, inRange_of_le group]
  · simp [nocallIn, inRange_of_le position]

end

theorem frameIn_none (h : Header) : frameIn h none = none := by
  simp [frameIn]

theorem frameIn_of_outside {h : Header} (outside : 15 ≤ h.source ∨ 16 ≤ h.dest) (b : Option Body) : frameIn h b = none := by
  rcases outside with source | dest
  · simp [frameIn, inRange_of_le source]
  · simp [frameIn, inRange_of_le dest]

/-! ### What the receiver does (R123, R124) -/

theorem receive_of_outOfService {s : State} (out : s.outOfService = true) (f : Option Frame) : receive f s = s :=
  if_pos out

theorem receive_none {s : State} (inService : s.outOfService = false) : receive none s = checkErrorCounted s := by
  rw [receive, inService, checkErrorCounted, ← count1_eq_min]
  rfl

theorem attend_checkErrorCounted (s : State) : attend s (checkErrorCounted s) = checkErrorCounted s :=
  attend_quiet rfl rfl rfl rfl

theorem attend_frameCounted (s : State) : attend s (frameCounted s) = frameCounted s :=
  attend_quiet rfl rfl rfl rfl

/-- A command whose body is out of range is a check error. -/
theorem event_receive_unread {read : Option Body} (unread : read = none) (h : Header) {s : State}
    (inService : s.outOfService = false) : event (receive (frameIn h read)) s = .next (checkErrorCounted s) := by
  rw [unread, frameIn_none, event_eq, receive_none inService, attend_checkErrorCounted]

theorem frameIn_some {h : Header} (source : h.source < 15) (dest : h.dest < 16) (b : Body) :
    frameIn h (some b) = some ⟨⟨h.source, source⟩, ⟨h.dest, dest⟩, b⟩ := by
  simp [frameIn, inRange, source, dest]

theorem receive_some {s : State} (inService : s.outOfService = false) (f : Frame) : receive (some f) s = takeFrame f s := by
  rw [receive, inService]
  rfl

/-- A frame of this station's own ID (R124 step 2, R132). -/
theorem takeFrame_own {s : State} {f : Frame} (own : s.bus.id = some f.source) : takeFrame f s =
    if s.bus.sentFirstByte = true ∨ s.bus.station = .duplicateId then frameCounted s
    else isolate .duplicateId (frameCounted s) := by
  rw [takeFrame_counted, if_pos own]
  rfl

section
variable {s : State} {f : Frame} {me : Station}

/-- A frame for another station only refreshes its source (R124, R135). -/
theorem takeFrame_elsewhere (station : s.bus.id = some me) (foreign : me ≠ f.source) (below : f.dest.val < 15)
    (elsewhere : f.dest.val ≠ me.val) : takeFrame f s = heardFrom f.source s := by
  have notHere : ¬ (f.dest.val = 15 ∨ s.bus.id.map toDest = some f.dest) := by
    rintro (all | own)
    · omega
    · rw [station, Option.map_some, Option.some.injEq] at own
      exact elsewhere (congrArg Fin.val own.symm)
  rw [takeFrame_counted, if_neg (by simp [station, foreign]), if_neg notHere]

theorem takeFrame_here (station : s.bus.id = some me) (foreign : me ≠ f.source)
    (here : f.dest.val = 15 ∨ f.dest.val = me.val) : takeFrame f s =
      if s.bus.station.takesKind f.body = true then handle f.source f.body (heardFrom f.source s)
      else heardFrom f.source s := by
  have reached : f.dest.val = 15 ∨ s.bus.id.map toDest = some f.dest :=
    here.imp_right fun own => by rw [station, Option.map_some, Option.some.injEq]; exact Fin.ext own.symm
  rw [takeFrame_counted, if_neg (by simp [station, foreign]), if_pos reached]

end

/-- A peer's frame that reaches the station is handled, when the station takes its kind. -/
theorem receive_here {s : State} {h : Header} {p me : Station} (arrives : Arrives s h p me) (b : Body) :
    receive (frameIn h (some b)) s =
      if s.bus.station.takesKind b = true then handle p b (heardFrom p s) else heardFrom p s := by
  obtain ⟨inService, station, foreign, source, here⟩ := arrives
  have dest : h.dest < 16 := by
    have := me.isLt
    omega
  have frame : frameIn h (some b) = some ⟨p, ⟨h.dest, dest⟩, b⟩ := by
    rw [frameIn_some (source ▸ p.isLt) dest]
    simp only [source]
  rw [frame, receive_some inService, takeFrame_here station foreign here]

/-- ISOLATED ignores what asks something of the station. -/
theorem takesKind_of_asks {st : StationState} (silent : st.sendsReplies = false) {b : Body} (asks : b.asks = true) :
    st.takesKind b = false := by
  cases st with
  | joining | active => cases silent
  | starting | unconfigured => rfl
  | busFault | duplicateId =>
    cases b with
    | offer | claim => rfl
    | summary | accept | decline | cancel | answered | returned | nocall => cases asks

theorem asks_iff (b : Body) : b.asks = true ↔
    (∃ r g pr t tag age, b = .offer r g pr t tag age) ∨ ∃ g st q sc, b = .claim g st q sc := by
  cases b <;> simp [Body.asks]

/-- A frame that names the wrong station counts stale (R148). -/
theorem handle_of_misnamed {s : State} {p : Station} {b : Body} (misnamed : namingPasses s p b = false) :
    handle p b s = staleCounted s := by
  rw [handle.eq_def, misnamed, countStale_counted]
  rfl

/-! ### The bytes of a frame (R123) -/

theorem entryInRange_of_entryIn {e : RawEntry} {x : Entry} (read : entryIn e = some x) : EntryInRange x := by
  simp only [entryIn, Option.bind_eq_bind, Option.bind_eq_some_iff, atMost_eq_some_iff, Option.pure_def,
    Option.some.injEq] at read
  obtain ⟨g, -, n, ⟨ready, rfl⟩, m, ⟨best, rfl⟩, k, ⟨waiting, rfl⟩, j, ⟨age, rfl⟩, rfl⟩ := read
  exact ⟨ready, best, waiting, age⟩

theorem entriesInRange_of_entriesIn {es : List RawEntry} {xs : List Entry} (read : entriesIn es = some xs) :
    xs.length = es.length ∧ ∀ x ∈ xs, EntryInRange x := by
  induction es generalizing xs with
  | nil =>
    cases read
    exact ⟨rfl, nofun⟩
  | cons e es ih =>
    simp only [entriesIn, Option.bind_eq_bind, Option.bind_eq_some_iff, Option.pure_def, Option.some.injEq] at read
    obtain ⟨x, first, ys, rest, rfl⟩ := read
    obtain ⟨length, each⟩ := ih rest
    exact ⟨congrArg (· + 1) length, List.forall_mem_cons.2 ⟨entryInRange_of_entryIn first, each⟩⟩

theorem bodyInRange_of_summaryIn {es : List RawEntry} {b : Body} (read : summaryIn es = some b) : BodyInRange b := by
  simp only [summaryIn, Option.ite_none_right_eq_some, Option.map_eq_some_iff] at read
  obtain ⟨few, xs, entries, rfl⟩ := read
  obtain ⟨length, each⟩ := entriesInRange_of_entriesIn entries
  exact ⟨length.trans_le few, each⟩

theorem bodyInRange_of_offerIn {r : RawRef} {g p t : Nat} {tag : Half} {age : Nat} {b : Body}
    (read : offerIn r g p t tag age = some b) : BodyInRange b := by
  simp only [offerIn, Option.bind_eq_bind, Option.bind_eq_some_iff, atMost_eq_some_iff, Option.pure_def,
    Option.some.injEq] at read
  obtain ⟨_, -, _, -, _, ⟨priority, rfl⟩, _, -, _, ⟨age, rfl⟩, rfl⟩ := read
  exact ⟨priority, age⟩

theorem bodyInRange_of_claimIn {g st p score : Nat} {b : Body} (read : claimIn g st p score = some b) :
    BodyInRange b := by
  simp only [claimIn, Option.bind_eq_bind, Option.bind_eq_some_iff, atMost_eq_some_iff, Option.pure_def,
    Option.some.injEq] at read
  obtain ⟨_, -, _, -, _, -, _, ⟨score, rfl⟩, rfl⟩ := read
  exact score

theorem bodyInRange_of_acceptIn {r : RawRef} {p score : Nat} {b : Body} (read : acceptIn r p score = some b) :
    BodyInRange b := by
  simp only [acceptIn, Option.bind_eq_bind, Option.bind_eq_some_iff, atMost_eq_some_iff, Option.pure_def,
    Option.some.injEq] at read
  obtain ⟨_, -, _, -, _, ⟨score, rfl⟩, rfl⟩ := read
  exact score

theorem bodyInRange_of_bodyIn {kind : Nat} {payload : List Byte} {b : Body} (read : bodyIn kind payload = some b) :
    BodyInRange b := by
  unfold bodyIn at read
  split at read
  · obtain ⟨es, -, counted⟩ := Option.bind_eq_some_iff.1 read
    exact bodyInRange_of_summaryIn (Option.ite_none_right_eq_some.1 counted).2
  · exact bodyInRange_of_offerIn read
  · exact bodyInRange_of_claimIn read
  · exact bodyInRange_of_acceptIn read
  · simp only [declineIn, Option.bind_eq_bind, Option.bind_eq_some_iff, Option.pure_def, Option.some.injEq] at read
    obtain ⟨_, -, _, -, rfl⟩ := read
    trivial
  · simp only [cancelIn, Option.bind_eq_bind, Option.bind_eq_some_iff, Option.pure_def, Option.some.injEq] at read
    obtain ⟨_, -, rfl⟩ := read
    trivial
  · simp only [answeredIn, Option.bind_eq_bind, Option.bind_eq_some_iff, Option.pure_def, Option.some.injEq] at read
    obtain ⟨_, -, _, -, rfl⟩ := read
    trivial
  · simp only [returnedIn, Option.bind_eq_bind, Option.bind_eq_some_iff, Option.pure_def, Option.some.injEq] at read
    obtain ⟨_, -, _, -, rfl⟩ := read
    trivial
  · simp only [nocallIn, Option.bind_eq_bind, Option.bind_eq_some_iff, Option.pure_def, Option.some.injEq] at read
    obtain ⟨_, -, _, -, rfl⟩ := read
    trivial
  · cases read

theorem frameIn_eq_some {h : Header} {read : Option Body} {f : Frame} (taken : frameIn h read = some f) :
    read = some f.body := by
  simp only [frameIn, Option.bind_eq_bind, Option.bind_eq_some_iff, Option.pure_def, Option.some.injEq] at taken
  obtain ⟨_, -, _, -, b, read, rfl⟩ := taken
  exact read

theorem bodyInRange_of_receiveBytes {bytes : List Byte} {f : Frame} (read : receiveBytes bytes = some f) :
    BodyInRange f.body := by
  unfold receiveBytes at read
  split at read
  · exact bodyInRange_of_bodyIn (frameIn_eq_some (Option.ite_none_right_eq_some.1 read).2)
  · cases read

theorem exec_frameCheckError {bytes : List Byte} (some : bytes ≠ []) (s : State) :
    exec (.frameCheckError bytes) s = .next (attend s (receive (receiveBytes bytes) s)) := by
  change execFrameCheckError bytes s = _
  rw [execFrameCheckError, event_eq, if_neg (by simpa using some)]

/-- Settles O48, in the order of R123 and R124. -/
theorem framesAreTestedInOrder : Obligations.FramesAreTestedInOrder := by
  refine ⟨fun s h b inRange => ⟨fun out => ?_, fun inService outside => ?_, fun me inService station own dest => ?_,
      fun p me inService station foreign source below elsewhere => ?_, fun p me arrives => ⟨fun silent asks => ?_,
      fun heeded misnamed => ?_⟩⟩,
    fun s bytes inService some => ⟨fun unread => ?_, fun f read => ?_⟩,
    fun s h r g st p n t age reason tag es inService =>
      ⟨fun outside => event_receive_unread (summaryIn_of_outside outside) h inService,
       fun outside => event_receive_unread (offerIn_of_outside outside tag) h inService,
       fun outside => event_receive_unread (claimIn_of_outside outside) h inService,
       fun outside => event_receive_unread (acceptIn_of_outside outside) h inService,
       fun outside => event_receive_unread (declineIn_of_outside outside) h inService,
       fun outside => event_receive_unread (cancelIn_of_outside outside) h inService,
       fun outside => ⟨event_receive_unread (answeredIn_of_outside outside) h inService,
        event_receive_unread (returnedIn_of_outside outside) h inService⟩,
       fun outside => event_receive_unread (nocallIn_of_outside outside) h inService⟩⟩
  · rw [exec_frameInstr h inRange, receive_of_outOfService out, attend_self]
  · rw [exec_frameInstr h inRange, frameIn_of_outside outside, receive_none inService, attend_checkErrorCounted]
  · have source : h.source < 15 := own.trans_lt me.isLt
    have mine : s.bus.id = Option.some ⟨h.source, source⟩ := station.trans (congrArg Option.some (Fin.ext own.symm))
    rw [exec_frameInstr h inRange, frameIn_some source dest, receive_some inService, takeFrame_own mine]
    split
    · rw [attend_frameCounted]
    · rfl
  · have dest : h.dest < 16 := by omega
    have frame : frameIn h (Option.some b) = Option.some ⟨p, ⟨h.dest, dest⟩, b⟩ := by
      rw [frameIn_some (source ▸ p.isLt) dest]
      simp only [source]
    rw [exec_frameInstr h inRange, frame, receive_some inService, takeFrame_elsewhere station foreign below elsewhere]
  · rw [exec_frameInstr h inRange, receive_here arrives, if_neg]
    exact Bool.eq_false_iff.1 (takesKind_of_asks silent ((asks_iff b).2 asks))
  · have kind : b.asks = true → s.bus.station.sendsReplies = true := fun asks => heeded.resolve_right fun neither =>
      ((asks_iff b).1 asks).elim (fun ⟨r, g, pr, t, tag, age, offer⟩ => neither.1 r g pr t tag age offer)
        fun ⟨g, st, q, sc, claim⟩ => neither.2 g st q sc claim
    have fails : namingPasses (heardFrom p s) p b = false := by
      have station : (heardFrom p s).bus.id = Option.some me := arrives.2.1
      cases b with
      | nocall | summary => exact misnamed.elim
      | offer | cancel | claim => exact decide_eq_false misnamed
      | accept | decline | answered | returned =>
        refine decide_eq_false fun own => misnamed ?_
        exact (Option.some.inj (station.symm.trans own)).symm
    rw [exec_frameInstr h inRange, receive_of_arrives arrives (takesKind_of_inService arrives.1 kind),
      handle_of_misnamed fails]
  · rw [exec_frameCheckError some, unread, receive_none inService, attend_checkErrorCounted]
  · rw [exec_frameCheckError some, read, exec_frameInstr _ (bodyInRange_of_receiveBytes read),
      frameIn_some f.source.isLt f.dest.isLt]

end Sys2Proof.Machine
end

section
/-! PROOFS of the figures (R49 to R62, R134, R143, R144): each against the property that characterises it. -/

namespace Sys2Proof.Machine

/-! ### Walks and counts -/

section
variable {α : Type}

/-- The greatest value of a list, 0 for the empty one: none lies above it, and one is it. -/
theorem foldl_max_spec (f : α → Nat) (l : List α) :
    (∀ x ∈ l, f x ≤ l.foldl (fun m x => max m (f x)) 0) ∧
      (l.foldl (fun m x => max m (f x)) 0 = 0 ∨ ∃ x ∈ l, l.foldl (fun m x => max m (f x)) 0 = f x) := by
  induction l using List.reverseRecOn with
  | nil => exact ⟨nofun, .inl rfl⟩
  | append_singleton l x ih =>
    obtain ⟨above, attained⟩ := ih
    simp only [List.foldl_append, List.foldl_cons, List.foldl_nil, List.forall_mem_append, List.forall_mem_singleton]
    refine ⟨⟨fun y inside => (above y inside).trans (Nat.le_max_left ..), Nat.le_max_right ..⟩, ?_⟩
    rcases le_total (l.foldl (fun m x => max m (f x)) 0) (f x) with less | more
    · exact .inr ⟨x, by simp, Nat.max_eq_right less⟩
    · rw [Nat.max_eq_left more]
      exact attained.imp_right fun ⟨y, inside, equal⟩ => ⟨y, List.mem_append_left _ inside, equal⟩

theorem countP_finRange {n : Nat} (P : Fin n → Bool) :
    ∃ ps : List (Fin n), ps.Nodup ∧ (List.finRange n).countP P = ps.length ∧ ∀ p, p ∈ ps ↔ P p = true :=
  ⟨(List.finRange n).filter P, (List.nodup_finRange n).filter P, List.countP_eq_length_filter, by simp⟩

/-- The first element that satisfies a test, of a list split there. -/
theorem find?_of_split {P : α → Bool} {pre post : List α} {x : α} (found : P x = true) (before : ∀ y ∈ pre, P y = false) :
    (pre ++ x :: post).find? P = some x := by
  have none : pre.find? P = none := by simpa [List.find?_eq_none] using before
  rw [List.find?_append, none, Option.none_or, List.find?_cons_of_pos found]

end

/-! ### The score, the bucket, the digits and the wait (R52, R57, R59, R60) -/

theorem scoreOf_eq (prof idle occ debt wIdle wOcc : Nat) : (scoreOf prof idle occ debt wIdle wOcc : Int) = max 1
    (2048 * (prof : Int) + (idle * wIdle / 8 : Nat) + ((1000 - occ) * wOcc / 16 : Nat) - 16 * (debt : Int)) := by
  unfold scoreOf
  omega

theorem scoreOf_pos (prof idle occ debt wIdle wOcc : Nat) : 1 ≤ scoreOf prof idle occ debt wIdle wOcc := Nat.le_max_left ..

theorem scoreOf_le {prof idle occ debt wIdle wOcc : Nat} (inProf : prof ≤ 15) (inIdle : idle ≤ 2047) (inWIdle : wIdle ≤ 15)
    (inWOcc : wOcc ≤ 15) : scoreOf prof idle occ debt wIdle wOcc ≤ 35495 := by
  have idlePart : idle * wIdle ≤ 2047 * 15 := Nat.mul_le_mul inIdle inWIdle
  have occPart : (1000 - occ) * wOcc ≤ 1000 * 15 := Nat.mul_le_mul (Nat.sub_le ..) inWOcc
  unfold scoreOf
  omega

theorem bucket_spec {x t1 t2 t3 : Nat} (rises : t1 < t2) (rises' : t2 < t3) :
    (x < t1 → bucket x (t1, t2, t3) = 1) ∧ (t1 ≤ x → x < t2 → bucket x (t1, t2, t3) = 2) ∧
    (t2 ≤ x → x < t3 → bucket x (t1, t2, t3) = 3) ∧ (t3 ≤ x → bucket x (t1, t2, t3) = 4) := by
  refine ⟨fun first => if_pos first, fun low high => ?_, fun low high => ?_, fun low => ?_⟩
  · rw [bucket, if_neg low.not_gt, if_pos high]
  · rw [bucket, if_neg (rises.le.trans low).not_gt, if_neg low.not_gt, if_pos high]
  · rw [bucket, if_neg ((rises.trans rises').le.trans low).not_gt, if_neg (rises'.le.trans low).not_gt, if_neg low.not_gt]

theorem spokenDigits_spec {n : Nat} (small : n ≤ 999) :
    (spokenDigits n).foldl (fun v d => 10 * v + d) 0 = n ∧ (∀ d ∈ spokenDigits n, d ≤ 9) ∧
      ((spokenDigits n).head? = some 0 → spokenDigits n = [0]) ∧ 1 ≤ (spokenDigits n).length ∧
      (spokenDigits n).length ≤ 3 := by
  by_cases one : n < 10
  · rw [spokenDigits, if_pos one]
    refine ⟨by simp, by simp; omega, by simp, by simp, by simp⟩
  by_cases two : n < 100
  · rw [spokenDigits, if_neg one, if_pos two]
    simp only [List.foldl_cons, List.foldl_nil, List.forall_mem_cons, List.head?_cons, Option.some.injEq,
      List.length_cons, List.length_nil]
    refine ⟨by omega, ⟨by omega, by omega, nofun⟩, fun zero => by omega, by omega, by omega⟩
  · rw [spokenDigits, if_neg one, if_neg two]
    simp only [List.foldl_cons, List.foldl_nil, List.forall_mem_cons, List.head?_cons, Option.some.injEq,
      List.length_cons, List.length_nil]
    refine ⟨by omega, ⟨by omega, by omega, by omega, nofun⟩, fun zero => by omega, by omega, by omega⟩

theorem ewt_eq (k aht n : Nat) : ewt k aht n = min 5999 ((k * aht + max 1 n - 1) / max 1 n) := by
  rw [ewt, saturate_eq_min, ceilDiv]

/-! ### The inputs and who has a score (R49 to R53) -/

theorem idleInput_of_since {now t : Nat} {a : Agent} (since : a.state.since = some t) :
    idleInput now a = min 2047 ((now - t) / 10) := by
  simp only [idleInput, since, saturate_eq_min]

theorem since_of_carrying {st : AgentState} {t : Nat}
    (carries : st = .ready t ∨ st = .claiming t ∨ ∃ b d, st = .alerting t b d) : st.since = some t := by
  rcases carries with rfl | rfl | ⟨b, d, rfl⟩ <;> rfl

theorem idleInput_of_none {a : Agent} (none : a.state.since = none) (now : Nat) : idleInput now a = 0 := by
  simp only [idleInput, none]

theorem occupancy_of_absent {s : State} (absent : s.cfg = none) (a : Agent) : occupancy s a = 0 := by
  simp only [occupancy, absent]

theorem occupancy_of_loaded {s : State} (loaded : s.cfg ≠ none) (a : Agent) : occupancy s a =
    min 1000 (1000 * (a.busyPrev + a.busyCur) / (s.conf.windowHalf + s.time.windowCount)) := by
  obtain ⟨c, configured⟩ := Option.ne_none_iff_exists'.1 loaded
  simp only [occupancy, State.conf, configured, Option.getD_some, saturate_eq_min]

theorem scoreIn_of_member {s : State} {a : Agent} {m : Membership} {pre post : List Membership}
    (available : a.state.available = true) (members : a.members = pre ++ m :: post)
    (first : ∀ x ∈ pre, x.group ≠ m.group) : scoreIn s a m.group =
      scoreOf m.proficiency (idleInput s.now a) (occupancy s a) (debtInput a) (s.groupRec m.group).wIdle
        (s.groupRec m.group).wOcc := by
  have proficient : a.proficiency m.group = some m.proficiency := by
    rw [Agent.proficiency, members, find?_of_split (by simp) (by simpa using first), Option.map_some]
  simp only [scoreIn, available, proficient]

theorem scoreIn_of_other {s : State} {a : Agent} {g : Group}
    (other : a.state.available = false ∨ ∀ m ∈ a.members, m.group ≠ g) : scoreIn s a g = 0 := by
  rcases other with unavailable | outside
  · simp only [scoreIn, unavailable]
  · have none : a.proficiency g = none := by
      rw [Agent.proficiency, Option.map_eq_none_iff, List.find?_eq_none]
      simpa using outside
    unfold scoreIn
    split
    · next proficient => exact nomatch none.symm.trans proficient
    · rfl

/-- The best over several groups: no membership of them scores higher, and one scores it (R53). -/
theorem scoreOver_spec (s : State) (a : Agent) (gs : List Group) :
    (∀ m ∈ a.members, m.group ∈ gs → scoreIn s a m.group ≤ (scoreOver s a gs).1) ∧
    ((scoreOver s a gs).1 = 0 ∨ ∃ m ∈ a.members, m.group ∈ gs ∧ scoreIn s a m.group = (scoreOver s a gs).1) := by
  unfold scoreOver
  induction a.members using List.reverseRecOn with
  | nil => exact ⟨nofun, .inl rfl⟩
  | append_singleton ms x ih =>
    obtain ⟨above, attained⟩ := ih
    simp only [List.foldl_append, List.foldl_cons, List.foldl_nil, List.forall_mem_append, List.forall_mem_singleton]
    split
    · next takes =>
      exact ⟨⟨fun m inside eligible => (above m inside eligible).trans takes.2.le, fun _ => le_rfl⟩,
        .inr ⟨x, by simp, takes.1, rfl⟩⟩
    · next keeps =>
      refine ⟨⟨above, fun eligible => ?_⟩, attained.imp_right fun ⟨m, inside, rest⟩ => ⟨m, List.mem_append_left _ inside, rest⟩⟩
      exact not_lt.1 fun higher => keeps ⟨eligible, higher⟩

/-! ### The staffed count and the expected wait (R56 to R58) -/

theorem memberOf_iff (a : Agent) (g : Group) : a.memberOf g = true ↔ ∃ m ∈ a.members, m.group = g := by
  simp [Agent.memberOf]

theorem staffed_iff (st : AgentState) : st.staffed = true ↔ st ≠ .loggedOut ∧ ∀ r, st ≠ .notReady r := by
  cases st <;> simp [AgentState.staffed]

theorem available_iff (st : AgentState) : st.available = true ↔ (∃ t, st = .ready t) ∨ ∃ t, st = .claiming t := by
  cases st <;> simp [AgentState.available]

theorem staffedLocal_spec (s : State) (g : Group) :
    ∃ ps : List Position, ps.Nodup ∧ staffedLocal s g = ps.length ∧ ∀ p, p ∈ ps ↔
      (s.agent p).state ≠ .loggedOut ∧ (∀ r, (s.agent p).state ≠ .notReady r) ∧
        ∃ m ∈ (s.agent p).members, m.group = g := by
  obtain ⟨ps, distinct, count, each⟩ := countP_finRange fun p => (s.agent p).state.staffed && (s.agent p).memberOf g
  refine ⟨ps, distinct, count, fun p => ?_⟩
  rw [each, Bool.and_eq_true, staffed_iff, memberOf_iff, and_assoc]

theorem headEwt_of_empty {s : State} {g : Group} (empty : s.queue g = []) :
    headEwt s g = ewt 1 s.aht[g] (staffedLocal s g) := by
  simp only [headEwt, empty, List.head?_nil, Option.bind_none]

theorem headEwt_of_head {s : State} {g : Group} {c : Slot} {rest : List Slot} {k : Call} (queue : s.queue g = c :: rest)
    (held : s.callAt c = some k) : headEwt s g = ewt 1 s.aht[g] (staffed s g k.tier) := by
  simp only [headEwt, queue, List.head?_cons, Option.bind_some, held]

/-! ### The summary figures (R61, R62, R134, R143, R144) -/

theorem figuresIn_of_first {es pre post : List Entry} {e : Entry} (split : es = pre ++ e :: post)
    (first : ∀ x ∈ pre, x.group ≠ e.group) : figuresIn es e.group = e := by
  rw [figuresIn, split, find?_of_split (by simp) (by simpa using first), Option.getD_some]

theorem figuresIn_of_unlisted {es : List Entry} {g : Group} (unlisted : ∀ e ∈ es, e.group ≠ g) :
    figuresIn es g = ⟨g, 0, 0, 0, 0⟩ := by
  rw [figuresIn, List.find?_eq_none.2 (by simpa using unlisted), Option.getD_none]

theorem readyCount_spec (s : State) (g : Group) :
    ∃ ps : List Position, ps.Nodup ∧ readyCount s g = ps.length ∧ ∀ p, p ∈ ps ↔
      ((∃ t, (s.agent p).state = .ready t) ∨ ∃ t, (s.agent p).state = .claiming t) ∧
        ∃ m ∈ (s.agent p).members, m.group = g := by
  obtain ⟨ps, distinct, count, each⟩ := countP_finRange fun p => (s.agent p).state.available && (s.agent p).memberOf g
  refine ⟨ps, distinct, count, fun p => ?_⟩
  rw [each, Bool.and_eq_true, available_iff, memberOf_iff]

theorem bestOf_spec (s : State) (g : Group) : (∀ p, scoreIn s (s.agent p) g ≤ bestOf s g) ∧
    (bestOf s g = 0 ∨ ∃ p, scoreIn s (s.agent p) g = bestOf s g) := by
  obtain ⟨above, attained⟩ := foldl_max_spec (fun p => scoreIn s (s.agent p) g) (List.finRange 48)
  exact ⟨fun p => above p (List.mem_finRange p), attained.imp_right fun ⟨p, _, equal⟩ => ⟨p, equal.symm⟩⟩

/-- The queued slots whose calls count in the peer waiting count (R62). -/
def peerWaitingSlots (s : State) (g : Group) : List Slot :=
  (s.queue g).filter fun c => (s.callAt c).any Call.waitsForPeers

theorem waitsForPeers_iff (k : Call) : k.waitsForPeers = true ↔ k.state = .waiting ∧ k.tier ≠ 0 := by
  simp [Call.waitsForPeers]

theorem mem_peerWaitingSlots {s : State} {g : Group} {c : Slot} : c ∈ peerWaitingSlots s g ↔
    c ∈ s.queue g ∧ ∃ k, s.callAt c = some k ∧ k.state = .waiting ∧ k.tier ≠ 0 := by
  simp [peerWaitingSlots, Option.any_eq_true, waitsForPeers_iff]

/-- The counted calls are those of the counted slots. -/
theorem peerWaitingCalls_eq (s : State) (g : Group) :
    (peerWaitingCalls s g).map some = (peerWaitingSlots s g).map s.callAt := by
  unfold peerWaitingCalls peerWaitingSlots
  induction s.queue g with
  | nil => rfl
  | cons c cs ih =>
    cases held : s.callAt c with
    | none => simpa [held] using ih
    | some k =>
      by_cases waits : k.waitsForPeers = true
      · simpa [held, waits] using ih
      · simpa [held, waits] using ih

theorem peerWaiting_eq (s : State) (g : Group) : peerWaiting s g = (peerWaitingSlots s g).length := by
  simpa [peerWaiting] using congrArg List.length (peerWaitingCalls_eq s g)

theorem mem_peerWaitingCalls {s : State} {g : Group} {k : Call} : k ∈ peerWaitingCalls s g ↔
    ∃ c ∈ peerWaitingSlots s g, s.callAt c = some k := by
  have same : some k ∈ (peerWaitingCalls s g).map some ↔ some k ∈ (peerWaitingSlots s g).map s.callAt := by
    rw [peerWaitingCalls_eq]
  simpa using same

theorem oldestAge_spec (s : State) (g : Group) :
    (∀ c ∈ peerWaitingSlots s g, ∀ k, s.callAt c = some k → min 65535 ((s.now - k.arrival) / 10) ≤ oldestAge s g) ∧
    (oldestAge s g = 0 ∨ ∃ c ∈ peerWaitingSlots s g, ∃ k, s.callAt c = some k ∧
      oldestAge s g = min 65535 ((s.now - k.arrival) / 10)) := by
  obtain ⟨above, attained⟩ := foldl_max_spec (fun k => saturate 65535 ((s.now - k.arrival) / 10)) (peerWaitingCalls s g)
  refine ⟨fun c counted k held => ?_, attained.imp_right fun ⟨k, counted, equal⟩ => ?_⟩
  · rw [← saturate_eq_min]
    exact above k (mem_peerWaitingCalls.2 ⟨c, counted, held⟩)
  · obtain ⟨c, slot, held⟩ := mem_peerWaitingCalls.1 counted
    exact ⟨c, slot, k, held, equal.trans (saturate_eq_min ..)⟩

theorem listed_iff (s : State) (g : Group) : listed s g = true ↔ (s.groupRec g).defined = true ∧ (s.queue g ≠ [] ∨
    ∃ p, (s.agent p).state ≠ .loggedOut ∧ ∃ m ∈ (s.agent p).members, m.group = g) := by
  simp [listed, State.defines, memberOf_iff]

theorem mem_buildSummary (s : State) (e : Entry) : e ∈ buildSummary s ↔ e = entryOf s e.group ∧ listed s e.group = true := by
  simp only [buildSummary, List.mem_map, List.mem_filter, List.mem_finRange, true_and]
  constructor
  · rintro ⟨g, listed, rfl⟩
    exact ⟨rfl, listed⟩
  · rintro ⟨entry, listed⟩
    exact ⟨e.group, listed, entry.symm⟩

theorem buildSummary_ascends (s : State) : (buildSummary s).Pairwise fun e f => e.group < f.group :=
  List.pairwise_map.2 ((List.pairwise_lt_finRange 16).filter _)

theorem differs_iff (a b : Entry) : a.differs b = true ↔
    a.ready ≠ b.ready ∨ a.waiting ≠ b.waiting ∨ a.best + 1024 ≤ b.best ∨ b.best + 1024 ≤ a.best := by
  simp [Entry.differs, or_assoc]

theorem significantChange_iff (s : State) : significantChange s = true ↔
    ∃ g, (figuresIn (buildSummary s) g).differs (figuresIn (s.builder.lastSent.getD []) g) = true := by
  simp [significantChange]

/-- Settles O52, a lemma for each figure. -/
theorem figuresFollowTheArithmetic : Obligations.FiguresFollowTheArithmetic := by
  refine ⟨fun prof idle occ debt wIdle wOcc inProf inIdle _ _ inWIdle inWOcc =>
      ⟨scoreOf_eq .., scoreOf_pos .., scoreOf_le inProf inIdle inWIdle inWOcc⟩,
    fun x t1 t2 t3 => bucket_spec, fun n => spokenDigits_spec,
    fun now a => ⟨fun t carries => idleInput_of_since (since_of_carrying carries), fun none => idleInput_of_none none now,
      saturate_eq_min ..⟩,
    fun s a => ⟨fun absent => occupancy_of_absent absent a, fun loaded => occupancy_of_loaded loaded a⟩,
    fun s a g => ⟨fun pre m post available members own first => ?_, scoreIn_of_other⟩,
    scoreOver_spec, ewt_eq,
    fun s g tier => ⟨staffedLocal_spec s g, rfl, headEwt_of_empty, fun c rest k => headEwt_of_head⟩,
    fun s c k => rfl, fun s q g => ⟨fun absent => ?_, fun row present => ?_⟩,
    fun es g => ⟨fun pre e post split own first => ?_, figuresIn_of_unlisted⟩,
    fun s g => ⟨readyCount_spec s g, (bestOf_spec s g).1, (bestOf_spec s g).2, peerWaitingSlots s g, List.filter_sublist,
      peerWaiting_eq s g, fun c queued => ?_, (oldestAge_spec s g).1, (oldestAge_spec s g).2⟩,
    fun s => ⟨buildSummary_ascends s, fun e => ?_⟩, fun s => ?_⟩
  · subst own
    exact scoreIn_of_member available members first
  · simp only [peerEntry, absent]
  · simp only [peerEntry, present]
    rfl
  · subst own
    exact figuresIn_of_first split first
  · simp [mem_peerWaitingSlots, queued]
  · rw [mem_buildSummary, listed_iff]
    rfl
  · simp only [significantChange_iff, differs_iff]
    exact ⟨fun ⟨g, differ⟩ => ⟨g, _, _, rfl, rfl, differ⟩, fun ⟨g, a, b, isA, isB, differ⟩ => ⟨g, isA ▸ isB ▸ differ⟩⟩

end Sys2Proof.Machine
end

section
/-! PROOFS of the frames on the line (R117, R119, R120, R122, R123, 11.5): from a body to its bytes and back, from bytes to
levels and back, and where two frames begun at once part. -/

namespace Sys2Proof.Machine

/-! ### Fields and their bytes (11.5) -/

theorem halfOf_bytes {n : Nat} (half : n ≤ 65535) : halfOf (highByte n) (lowByte n) = n := by
  rw [halfOf, highByte_toNat, lowByte_toNat]
  omega

theorem lowByte_toNat_of_byte {n : Nat} (byte : n < 256) : (lowByte n).toNat = n :=
  Nat.mod_eq_of_lt byte

theorem rawRef_bytes (r : CallRef) : rawRef (lowByte (16 * r.home.val + r.gen.val)) (lowByte r.slot.val) = rawOf r := by
  have home := r.home.isLt
  have slot := r.slot.isLt
  have gen := r.gen.isLt
  rw [rawRef, lowByte_toNat_of_byte (by omega), lowByte_toNat_of_byte (by omega), rawOf, RawRef.mk.injEq]
  omega

theorem rawEntries_bytes {es : List Entry} (each : ∀ e ∈ es, EntryInRange e) :
    rawEntries (es.flatMap entryBytes) = some (es.map rawEntry) := by
  induction es with
  | nil => rfl
  | cons e es ih =>
    obtain ⟨⟨ready, best, waiting, age⟩, rest⟩ := List.forall_mem_cons.1 each
    have group := e.group.isLt
    have entry : (⟨(lowByte e.group.val).toNat, (lowByte e.ready).toNat, halfOf (highByte e.best) (lowByte e.best),
        (lowByte e.waiting).toNat, halfOf (highByte e.age) (lowByte e.age)⟩ : RawEntry) = rawEntry e := by
      rw [lowByte_toNat_of_byte (by omega), lowByte_toNat_of_byte (by omega), lowByte_toNat_of_byte (by omega),
        halfOf_bytes (by omega), halfOf_bytes age, rawEntry]
    simp only [List.flatMap_cons, entryBytes, twoBytes_eq, List.cons_append, List.nil_append, rawEntries, ih rest,
      Option.map_some, entry, List.map_cons]

theorem summaryIn_rawEntries {es : List Entry} (few : es.length ≤ 16) (each : ∀ e ∈ es, EntryInRange e) :
    summaryIn (es.map rawEntry) = some (.summary es) := by
  simp [summaryIn, few, entriesIn_map_rawEntry each]

theorem halfOf_tag (tag : Half) : BitVec.ofNat 16 (halfOf (highByte tag.toNat) (lowByte tag.toNat)) = tag := by
  have small := tag.isLt
  rw [halfOf_bytes (by omega), BitVec.ofNat_toNat, BitVec.setWidth_eq]

/-! ### A body and its payload (R122, R123) -/

/-- The receiver reads a payload back as the body it was made of. -/
theorem bodyIn_payload {b : Body} (inRange : BodyInRange b) : bodyIn b.kind b.payload = some b := by
  have posByte (p : Position) : (lowByte p.val).toNat = p.val := lowByte_toNat_of_byte (by omega)
  have groupByte (g : Group) : (lowByte g.val).toNat = g.val := lowByte_toNat_of_byte (by omega)
  cases b with
  | summary es =>
    obtain ⟨few, each⟩ := inRange
    have count : (lowByte es.length).toNat = es.length := lowByte_toNat_of_byte (by omega)
    simp only [Body.kind, Body.payload, bodyIn, rawEntries_bytes each, Option.bind_some, List.length_map, count, if_true,
      summaryIn_rawEntries few each]
  | offer r g pr tier tag age =>
    obtain ⟨byte, waited⟩ := inRange
    have tierByte : (lowByte tier.val).toNat = tier.val := lowByte_toNat_of_byte (by omega)
    have priorityByte : (lowByte pr).toNat = pr := lowByte_toNat_of_byte (by omega)
    simp only [Body.kind, Body.payload, refBytes, twoBytes_eq, List.cons_append, List.nil_append, bodyIn, rawRef_bytes,
      groupByte, tierByte, priorityByte, halfOf_tag, halfOf_bytes waited]
    simp [offerIn, refIn_rawOf, inRange_val, atMost_of_le, byte, waited]
  | claim g st q score =>
    have score' : score ≤ 65535 := le_trans inRange (by decide)
    have stationByte : (lowByte st.val).toNat = st.val := lowByte_toNat_of_byte (by omega)
    simp only [Body.kind, Body.payload, twoBytes_eq, List.cons_append, List.nil_append, bodyIn, groupByte, stationByte,
      posByte, halfOf_bytes score']
    simp [claimIn, inRange_val, atMost_of_le inRange]
  | accept r q score =>
    have score' : score ≤ 65535 := le_trans inRange (by decide)
    simp only [Body.kind, Body.payload, refBytes, twoBytes_eq, List.cons_append, List.nil_append, bodyIn, rawRef_bytes,
      posByte, halfOf_bytes score']
    simp [acceptIn, refIn_rawOf, inRange_val, atMost_of_le inRange]
  | decline r why =>
    have reasonByte : (lowByte why.code).toNat = why.code := by cases why <;> rfl
    simp only [Body.kind, Body.payload, refBytes, List.cons_append, List.nil_append, bodyIn, rawRef_bytes, reasonByte]
    simp [declineIn, refIn_rawOf, reasonIn_code]
  | cancel r =>
    simp only [Body.kind, Body.payload, refBytes, bodyIn, rawRef_bytes]
    simp [cancelIn, refIn_rawOf]
  | answered r q =>
    simp only [Body.kind, Body.payload, refBytes, List.cons_append, List.nil_append, bodyIn, rawRef_bytes, posByte]
    simp [answeredIn, refIn_rawOf, inRange_val]
  | returned r q =>
    simp only [Body.kind, Body.payload, refBytes, List.cons_append, List.nil_append, bodyIn, rawRef_bytes, posByte]
    simp [returnedIn, refIn_rawOf, inRange_val]
  | nocall g q =>
    simp only [Body.kind, Body.payload, bodyIn, groupByte, posByte]
    simp [nocallIn, inRange_val]

theorem entryBytes_length (e : Entry) : (entryBytes e).length = 7 := rfl

theorem payload_length_le {b : Body} (inRange : BodyInRange b) : b.payload.length ≤ 120 := by
  cases b with
  | summary es =>
    have few := inRange.1
    have length : (es.flatMap entryBytes).length = es.length * 7 := by simp [List.length_flatMap, entryBytes_length]
    rw [Body.payload, List.length_cons, length]
    omega
  | offer | claim | accept | decline | cancel | answered | returned | nocall => simp [Body.payload, refBytes]

/-! ### A frame and its bytes (R122, R123) -/

/-- The byte that names the source and the destination. -/
def Frame.ends (f : Frame) : Byte := lowByte (16 * f.source.val + f.dest.val)

theorem Frame.ends_toNat (f : Frame) : f.ends.toNat = 16 * f.source.val + f.dest.val :=
  lowByte_toNat_of_byte (by omega)

/-- The bytes of a frame after SYNC: kind, ends, length, payload and check byte. -/
theorem Frame.bytes_eq (f : Frame) : f.bytes = syncByte :: lowByte f.body.kind :: f.ends ::
    lowByte f.body.payload.length :: (f.body.payload ++
      [xorAll ([lowByte f.body.kind, f.ends, lowByte f.body.payload.length] ++ f.body.payload)]) := rfl

theorem kind_toNat (b : Body) : (lowByte b.kind).toNat = b.kind := by
  cases b <;> rfl

theorem receiveBytes_bytes {f : Frame} (inRange : BodyInRange f.body) : receiveBytes f.bytes = some f := by
  have short := payload_length_le inRange
  have length : (lowByte f.body.payload.length).toNat = f.body.payload.length := lowByte_toNat_of_byte (by omega)
  have source : f.ends.toNat / 16 = f.source.val := by
    rw [Frame.ends_toNat]
    omega
  have dest : f.ends.toNat % 16 = f.dest.val := by
    rw [Frame.ends_toNat]
    omega
  rw [Frame.bytes_eq]
  simp only [receiveBytes, length, List.take_left, kind_toNat, bodyIn_payload inRange, source, dest]
  rw [if_pos ⟨trivial, short, by simp, by simp [List.getD_eq_getElem?_getD]⟩]
  exact frameIn_some f.source.isLt f.dest.isLt f.body

theorem Frame.bytes_length (f : Frame) : f.bytes.length = 5 + f.body.payload.length := by
  rw [Frame.bytes_eq]
  simp only [List.length_cons, List.length_append, List.length_nil]
  omega

/-! ### Bytes and their levels (R117) -/

/-- A run of bytes reads back from its levels. -/
theorem bytesOfLevels_runLevels (bytes : List Byte) : bytesOfLevels (runLevels bytes) = some bytes := by
  induction bytes with
  | nil => rfl
  | cons b bytes ih => rw [runLevels_cons, bytesOfLevels_byte, ih, Option.map_some]

section
variable {bytes : List Byte} {i : Nat}

theorem runLevels_start (inside : i < bytes.length) : (runLevels bytes)[10 * i]? = some .dominant :=
  runLevels_at bytes i inside 0 (by decide)

theorem runLevels_stop (inside : i < bytes.length) : (runLevels bytes)[10 * i + 9]? = some .recessive :=
  runLevels_at bytes i inside 9 (by decide)

theorem byteLevels_data (b : Byte) {j : Nat} (bit : j < 8) : (byteLevels b)[1 + j]? = some (bitLevel (b.getLsbD j)) := by
  rw [byteLevels, List.cons_append, Nat.add_comm, List.getElem?_cons_succ, List.getElem?_append_left (by simpa using bit)]
  simp [bit]

theorem runLevels_data (inside : i < bytes.length) {j : Nat} (bit : j < 8) :
    (runLevels bytes)[10 * i + 1 + j]? = some (bitLevel (bytes[i].getLsbD j)) := by
  rw [Nat.add_assoc, runLevels_at bytes i inside (1 + j) (by omega), byteLevels_data _ bit]

end

/-! ### The pair and the collision of two frames (R117, R119, R120) -/

theorem pairAt_recessive (sending : List (List Level)) (i : Nat) :
    pairAt sending i = .recessive ↔ ∀ sent ∈ sending, sent[i]? ≠ some .dominant := by
  have other : pairAt sending i = .recessive ↔ ¬ pairAt sending i = .dominant := by
    cases pairAt sending i <;> simp
  rw [other, pairAt_dominant]
  simp

theorem Frame.ends_ne {f g : Frame} (other : f.source ≠ g.source) : f.ends ≠ g.ends := by
  intro same
  have equal := congrArg BitVec.toNat same
  rw [Frame.ends_toNat, Frame.ends_toNat] at equal
  exact other (Fin.ext (by omega))

/-- The third byte of a frame is the one that names its source. -/
theorem Frame.levels_ends (f : Frame) {j : Nat} (bit : j < 8) : f.levels[21 + j]? = some (bitLevel (f.ends.getLsbD j)) :=
  runLevels_data (bytes := f.bytes) (i := 2) (by rw [Frame.bytes_length]; omega) bit

/-- Of two runs that part at a bit time, the one recessive there meets its collision. -/
theorem collidesAt_of_parted {a b : List Level} {i : Nat} {bit bit' : Bool} (atA : a[i]? = some (bitLevel bit))
    (atB : b[i]? = some (bitLevel bit')) (parted : bit ≠ bit') : collidesAt [a, b] a i ∨ collidesAt [a, b] b i := by
  cases bit with
  | true =>
    have low : bit' = false := by simpa using parted.symm
    exact .inl ⟨atA, (pairAt_dominant ..).2 ⟨b, by simp, by rw [atB, low]; rfl⟩⟩
  | false =>
    have high : bit' = true := by simpa using parted.symm
    exact .inr ⟨by rw [atB, high]; rfl, (pairAt_dominant ..).2 ⟨a, by simp, atA⟩⟩

theorem collidesAt_of_sources {f g : Frame} (other : f.source ≠ g.source) : ∃ i, i < 30 ∧
    (collidesAt [f.levels, g.levels] f.levels i ∨ collidesAt [f.levels, g.levels] g.levels i) := by
  obtain ⟨j, bit, parted⟩ : ∃ j, j < 8 ∧ f.ends.getLsbD j ≠ g.ends.getLsbD j := by
    by_contra same
    push Not at same
    exact Frame.ends_ne other (BitVec.eq_of_getLsbD_eq same)
  exact ⟨21 + j, by omega, collidesAt_of_parted (f.levels_ends bit) (g.levels_ends bit) parted⟩

/-- Settles O53. -/
theorem framesReadBackFromTheLine : Obligations.FramesReadBackFromTheLine := by
  refine ⟨fun f inRange => ⟨receiveBytes_bytes inRange, bytesOfLevels_runLevels f.bytes, f.bytes_length,
      payload_length_le inRange⟩,
    fun bytes => ⟨runLevels_length bytes, fun i inside => ⟨runLevels_start inside, runLevels_stop inside,
      fun j bit => runLevels_data inside bit⟩⟩,
    fun sending i => ⟨pairAt_dominant sending i, pairAt_recessive sending i⟩,
    fun s => ⟨fun quiet => ?_, fun f line => ?_⟩, fun f g => collidesAt_of_sources⟩
  · rw [State.lineLevels, State.lineBytes.eq_def, quiet]
    rfl
  · rw [State.lineLevels, State.lineBytes.eq_def, line]
    rfl

end Sys2Proof.Machine
end

section
/-! PROOFS of the treatments (R83 to R97, R99): the context that changes, the walk, the control steps, the slot a caller hears,
and the timed steps. -/

namespace Sys2Proof.Machine

/-! ### The context of a call -/

section
variable {s : State} {c : Slot} {k : Call} {x : Context}

theorem alterContext_becomes (c : Slot) (f : Context → Context) (s : State) : s.alterContext c f = contextBecomes c f s := rfl

theorem contextAt_of_call (held : s.callAt c = some k) (context : k.context = some x) : s.contextAt c = some x := by
  rw [State.contextAt, held, Option.bind_some, context]

/-- The context a call holds is all that an update of it reads. -/
theorem contextBecomes_of_context (context : s.contextAt c = some x) (f : Context → Context) :
    contextBecomes c f s = callBecomes c (fun k => { k with context := some (f x) }) s := by
  obtain ⟨k, held, has⟩ := Option.bind_eq_some_iff.1 context
  exact callBecomes_congr held (by rw [has, Option.map_some])

theorem contextBecomes_contextBecomes (c : Slot) (f g : Context → Context) (s : State) :
    contextBecomes c g (contextBecomes c f s) = contextBecomes c (fun x => g (f x)) s := by
  simp only [contextBecomes, callBecomes_callBecomes, Option.map_map]
  rfl

end

/-! ### A boundary and the walk (R84 to R86) -/

/-- The walk is held at the tail of the hold list (R84). -/
def contextHeld (c : Slot) (s : State) : State :=
  { contextBecomes c (fun x => { x with held := true }) s with
    treat := { s.treat with holdList := s.treat.holdList ++ [c] } }

section
variable {s : State} {c : Slot} {k : Call} {x : Context}

theorem boundary_of_full (full : s.free = 0) : boundary c s = contextHeld c s := by
  rw [boundary, if_neg (by omega)]
  rfl

theorem walkOn_of_call (held : s.callAt c = some k) (context : k.context = some x) :
    walkOn c s = walk c k 9 (stepDue s x) s := by
  simp only [walkOn, held, context]

theorem boundary_of_room (held : s.callAt c = some k) (context : k.context = some x) (room : 0 < s.free) :
    boundary c s = walk c k 9 (stepDue s x) s := by
  rw [boundary, if_pos room, walkOn_of_call held context]

theorem stepDue_of_none (fresh : x.heard = .nothing ∨ s.stepAt x.list x.index = none) : stepDue s x = x.index := by
  unfold stepDue
  rcases fresh with unheard | beyond
  · rw [if_pos unheard]
  · rw [beyond]
    split <;> rfl

theorem stepDue_of_step (heard : x.heard ≠ .nothing) {st : TreatStep} (step : s.stepAt x.list x.index = some st) :
    stepDue s x = if st.timed = true then x.index + 1 else x.index := by
  simp only [stepDue, if_neg heard, step]

theorem walk_of_timed (context : s.contextAt c = some x) {due : Nat} {st : TreatStep}
    (step : s.stepAt x.list due = some st) (timed : st.timed = true) (n : Nat) :
    walk c k (n + 1) due s = startTimed c k st
      (callBecomes c (fun k => { k with context := some { x with index := due, control := 0 } }) s) := by
  simp only [walk, context, step, if_pos timed]
  rw [alterContext_becomes, contextBecomes_of_context context]

/-- The walk from a control step: a stall after eight, else the step is taken. -/
theorem walk_of_control (context : s.contextAt c = some x) {due : Nat}
    (control : ∀ st, s.stepAt x.list due = some st → st.timed = false) (n : Nat) :
    walk c k (n + 1) due s = if 8 ≤ x.control then stall c k due s
      else walk c k n (takeControl s c k x due (s.stepAt x.list due)).2 (callBecomes c (fun j => { j with
        context := some { (takeControl s c k x due (s.stepAt x.list due)).1 with control := x.control + 1 } }) s) := by
  simp only [walk, context]
  cases step : s.stepAt x.list due with
  | none =>
    simp only [alterContext_becomes, contextBecomes_of_context context]
  | some st =>
    simp only [if_neg (Bool.eq_false_iff.1 (control st step)), alterContext_becomes, contextBecomes_of_context context]

end

/-- The context a treatment starts with (R83). -/
def freshContext (list : Nat) : Context := ⟨list, 0, none, none, .nothing, none, none, 0, 0, false⟩

section
variable {s : State} {c : Slot} {k : Call}

theorem startTreatment_of_call (held : s.callAt c = some k) : startTreatment c s = boundary c
    (callBecomes c (fun k' => { k' with context := some (freshContext (s.groupRec k.group).treatment) }) s) := by
  simp only [startTreatment, held]
  rfl

theorem startTreatment_of_full (held : s.callAt c = some k) (full : s.free = 0) : startTreatment c s =
    { callBecomes c (fun k' => { k' with
        context := some { freshContext (s.groupRec k.group).treatment with held := true } }) s with
      treat := { s.treat with holdList := s.treat.holdList ++ [c] } } := by
  rw [startTreatment_of_call held, boundary_of_full (s := callBecomes ..) full, contextHeld, contextBecomes,
    callBecomes_callBecomes]
  rfl

theorem startTreatment_of_room (held : s.callAt c = some k) (room : 0 < s.free) : startTreatment c s =
    walk c { k with context := some (freshContext (s.groupRec k.group).treatment) } 9 0
      (callBecomes c (fun k' => { k' with context := some (freshContext (s.groupRec k.group).treatment) }) s) := by
  rw [startTreatment_of_call held, boundary_of_room (callAt_callBecomes held _) rfl room, stepDue_of_none (.inl rfl)]
  rfl

end

/-! ### The control steps (R94 to R97) -/

section
variable {s : State} {c : Slot} {k : Call} {x : Context} {due : Nat} {on : BranchOn} {targets : List Nat}

theorem takeControl_branch_target (inside : branchValue s c k x on - 1 < targets.length) (pos : 0 < branchValue s c k x on) :
    takeControl s c k x due (some (.branch on targets)) = (x, targets[branchValue s c k x on - 1]) := by
  have listed : 1 ≤ branchValue s c k x on ∧ branchValue s c k x on ≤ targets.length := ⟨pos, by omega⟩
  simp only [takeControl, if_pos listed, List.getD_eq_getElem _ _ inside]

theorem takeControl_branch_next (outside : branchValue s c k x on = 0 ∨ targets.length < branchValue s c k x on) :
    takeControl s c k x due (some (.branch on targets)) = (x, due + 1) := by
  have unlisted : ¬ (1 ≤ branchValue s c k x on ∧ branchValue s c k x on ≤ targets.length) := by omega
  simp only [takeControl, if_neg unlisted]

theorem takeControl_end {endStep : Option TreatStep} (ends : endStep = none ∨ endStep = some .endList) :
    takeControl s c k x due endStep = takeEnd s x := by
  rcases ends with rfl | rfl <;> rfl

theorem takeEnd_of_top (top : x.back = none) :
    takeEnd s x = ({ x with visits := min 255 (x.visits + 1) }, s.loopOf x.list) := by
  simp only [takeEnd, top, saturate_eq_min]

theorem takeEnd_returns {r : ReturnPoint} (nested : x.back = some r)
    (last : r.runs = none ∨ r.runs = some 0 ∨ r.runs = some 1) :
    takeEnd s x = ({ x with list := r.list, back := none }, r.index) := by
  rcases last with runs | runs | runs <;> simp only [takeEnd, nested, runs]

theorem takeEnd_runs {r : ReturnPoint} {n : Nat} (nested : x.back = some r) (runs : r.runs = some (n + 2)) :
    takeEnd s x = ({ x with back := some { r with runs := some (n + 1) } }, 0) := by
  simp only [takeEnd, nested, runs]

end

/-! ### Where the caller hears the treatment (R87, R99) -/

section
variable {s : State} {c : Slot} {k : Call} {x : Context} {h : HeardOn}

theorem hearOn_of_same (held : s.callAt c = some k) (context : k.context = some x) (same : x.heard = h) :
    hearOn c h s = s := by
  simp only [hearOn, held, context, if_pos same]

theorem hearOn_of_change (held : s.callAt c = some k) (context : k.context = some x) (change : x.heard ≠ h)
    (room : 0 < s.free) : hearOn c h s = placed [.listen k.trunk h.number]
      (contextBecomes c (fun x => { x with heard := h }) (joinBed h (leaveBed x.heard s))) := by
  have roomThen : 0 < ((joinBed h (leaveBed x.heard s)).alterContext c fun x => { x with heard := h }).free := by
    simpa [State.free] using room
  simp only [hearOn, held, context, if_neg change, place_placed _ roomThen]
  rfl

end

theorem joinBed_of_no_bed {h : HeardOn} (s : State) (noBed : ∀ b, h ≠ .bed b) : joinBed h s = s := by
  cases h with
  | bed b => exact absurd rfl (noBed b)
  | nothing | voice | silence => rfl

/-! ### The voice and the clips (R90 to R92) -/

theorem freeVoice_eq_some_iff (s : State) (v : Voice) :
    freeVoice s = some v ↔ s.treat.voices[v] = none ∧ ∀ w, w < v → s.treat.voices[w] ≠ none := by
  simp [freeVoice, find?_finRange_eq_some_iff]

theorem pickVoice_eq_some_iff (s : State) (c : Slot) (v : Voice) : pickVoice c s = some v ↔ PlaysOn s c v := by
  unfold PlaysOn
  cases own : voiceOf c s with
  | some w =>
    obtain ⟨attached, first⟩ := (voiceOf_eq_some_iff s c w).1 own
    simp only [pickVoice, own, Option.some.injEq]
    constructor
    · rintro rfl
      exact .inl ⟨attached, first⟩
    · rintro (⟨attachedV, firstV⟩ | ⟨none, -⟩)
      · exact Option.some.inj (own.symm.trans ((voiceOf_eq_some_iff s c v).2 ⟨attachedV, firstV⟩))
      · exact absurd attached (none w)
  | none =>
    have none := (voiceOf_eq_none_iff s c).1 own
    simp only [pickVoice, own, Option.ite_none_right_eq_some, freeVoice_eq_some_iff]
    constructor
    · rintro ⟨room, free⟩
      exact .inr ⟨none, room, free⟩
    · rintro (⟨attached, -⟩ | ⟨-, room, free⟩)
      · exact absurd attached (none v)
      · exact ⟨room, free⟩

section
variable {s : State} {c : Slot}

theorem playClips_of_voice {v : Voice} (plays : PlaysOn s c v) (k : Call) (clips : List Nat) (digits : Option (List Nat)) :
    playClips c k clips digits s = contextBecomes c (fun x => { x with deadline := none, digits := digits })
      (hearOn c (.voice v) (startStream (voiceStream v) (clips.headD 0) (voiceHeld v (some c) s))) := by
  simp only [playClips, (pickVoice_eq_some_iff s c v).2 plays]
  rfl

theorem playClips_of_none (none : ∀ v, ¬ PlaysOn s c v) (k : Call) (clips : List Nat) (digits : Option (List Nat)) :
    playClips c k clips digits s = contextBecomes c (fun x => { x with
        deadline := some (s.now + 10 * (((clips.map s.clipLength).sum + 7999) / 8000)), digits := Option.none })
      (hearOn c (.bed (s.groupRec k.group).fallback)
        { s with treat := { s.treat with shortages := min 65535 (s.treat.shortages + 1) } }) := by
  have voiceless : pickVoice c s = Option.none :=
    Option.eq_none_iff_forall_ne_some.2 fun v picked => none v ((pickVoice_eq_some_iff s c v).1 picked)
  simp only [playClips, voiceless]
  rw [← count1_eq_min]
  rfl

end

/-- The clips a SAY or SAY_VALUE plays and the digits it leaves pending (R90, R91). -/
theorem startTimed_plays (s : State) (c : Slot) (k : Call) {step : TreatStep} {clips : List Nat} {digits : Option (List Nat)}
    (spoken : (step = .say (clips.headD 0) ∧ clips.length = 1 ∧ digits = none) ∨
      (∃ base, step = .sayValue .position base ∧ digits = some clips.tail ∧
        clips = (spokenDigits (min 999 ((s.queue k.group).idxOf c + 1))).map fun d => base + d) ∨
      (∃ base, step = .sayValue .ewtMinutes base ∧ digits = some clips.tail ∧
        clips = (spokenDigits (min 999 ((ewtOf s c k + 59) / 60))).map fun d => base + d)) :
    startTimed c k step s = playClips c k clips digits s := by
  rcases spoken with ⟨rfl, one, rfl⟩ | ⟨base, rfl, rfl, rfl⟩ | ⟨base, rfl, rfl, rfl⟩
  · obtain ⟨clip, rfl⟩ := List.length_eq_one_iff.1 one
    rfl
  · rw [← saturate_eq_min]
    rfl
  · rw [← saturate_eq_min]
    rfl

theorem stall_eq (s : State) (c : Slot) (k : Call) (due : Nat) : stall c k due s =
    contextBecomes c (fun x => { x with deadline := some (s.now + 10), digits := none, control := 0, index := due })
      (hearOn c (.bed (s.groupRec k.group).fallback) (releaseVoice c
        { s with treat := { s.treat with stalls := min 65535 (s.treat.stalls + 1) } })) := by
  rw [← count1_eq_min]
  exact contextBecomes_contextBecomes ..

/-- Settles O41. -/
theorem treatmentsWalkTheirLists : Obligations.TreatmentsWalkTheirLists := by
  refine ⟨fun s c k held => ⟨freshContext (s.groupRec k.group).treatment, _, rfl, rfl,
      fun full => startTreatment_of_full held full, fun room => startTreatment_of_room held room⟩,
    fun s c k x n due context => ⟨fun st step timed => walk_of_timed context step timed n,
      fun control => ⟨fun below => ⟨(takeControl s c k x due (s.stepAt x.list due)).1,
        (takeControl s c k x due (s.stepAt x.list due)).2, rfl, ?_⟩, fun reached => ?_⟩⟩,
    fun s c k x due n m on targets => ⟨rfl, rfl, fun inside pos => takeControl_branch_target inside pos,
      takeControl_branch_next, rfl, fun endStep ends => ⟨fun top => ?_, fun r nested => ⟨fun last => ?_, fun runs => ?_⟩⟩⟩,
    fun s c k x => ⟨rfl, rfl, rfl, rfl, saturate_eq_min ..⟩,
    fun s c k x held context => ⟨boundary_of_full, fun room => ⟨stepDue s x, boundary_of_room held context room,
      stepDue_of_none, fun st heard step => stepDue_of_step heard step⟩⟩,
    fun s c k x h held context => ⟨hearOn_of_same held context, fun change room => ⟨h.number, ?_,
      hearOn_of_change held context change room⟩⟩,
    fun s b n same => ⟨?_, fun h noBed => joinBed_of_no_bed s noBed⟩,
    fun s c k b d => ⟨rfl, rfl⟩,
    fun s c k step clips digits spoken => ⟨fun v n plays same => ?_, fun none => ?_⟩,
    fun s c k due => stall_eq s c k due⟩
  · rw [walk_of_control context control, if_neg below.not_ge]
  · rw [walk_of_control context control, if_pos reached]
  · rw [takeControl_end ends, takeEnd_of_top top]
  · rw [takeControl_end ends, takeEnd_returns nested last]
  · rw [takeControl_end ends, takeEnd_runs nested runs]
  · cases h <;> rfl
  · obtain rfl : n = bedStream b := Fin.ext same
    rfl
  · obtain rfl : n = voiceStream v := Fin.ext same
    rw [startTimed_plays s c k spoken, playClips_of_voice plays]
  · rw [startTimed_plays s c k spoken, playClips_of_none none]

end Sys2Proof.Machine
end

section
/-! PROOFS of the ends of timed steps and of the resumption of held treatments (R84, R86, R91, R93, R94, R98). -/

namespace Sys2Proof.Machine

/-! ### What a treatment leaves: the hold list, and of the Shelf Port all but the LISTENs it places -/

@[simp] theorem leaveBed_holdList (h : HeardOn) (s : State) : (leaveBed h s).treat.holdList = s.treat.holdList := by
  cases h with
  | bed b =>
    rw [leaveBed_bed]
    split <;> simp [listenersBecome]
  | nothing | voice | silence => rfl

@[simp] theorem joinBed_holdList (h : HeardOn) (s : State) : (joinBed h s).treat.holdList = s.treat.holdList := by
  cases h with
  | bed b =>
    simp only [joinBed]
    split <;> simp
  | nothing | voice | silence => rfl

@[simp] theorem hearOn_holdList (c : Slot) (h : HeardOn) (s : State) : (hearOn c h s).treat.holdList = s.treat.holdList := by
  unfold hearOn
  split
  · rfl
  · split
    · rfl
    · split <;> simp

@[simp] theorem releaseVoice_holdList (c : Slot) (s : State) : (releaseVoice c s).treat.holdList = s.treat.holdList := by
  unfold releaseVoice
  split <;> simp [State.modVoice]

@[simp] theorem playClips_holdList (c : Slot) (k : Call) (clips : List Nat) (digits : Option (List Nat)) (s : State) :
    (playClips c k clips digits s).treat.holdList = s.treat.holdList := by
  unfold playClips
  split <;> simp [State.modVoice, substitute]

@[simp] theorem startTimed_holdList (c : Slot) (k : Call) (st : TreatStep) (s : State) :
    (startTimed c k st s).treat.holdList = s.treat.holdList := by
  cases st <;> simp [startTimed]

@[simp] theorem stall_holdList (c : Slot) (k : Call) (due : Nat) (s : State) :
    (stall c k due s).treat.holdList = s.treat.holdList := by
  simp [stall]

@[simp] theorem walk_holdList (c : Slot) (k : Call) (fuel due : Nat) (s : State) :
    (walk c k fuel due s).treat.holdList = s.treat.holdList := by
  induction fuel generalizing due s with
  | zero => simp [walk]
  | succ n ih =>
    cases context : s.contextAt c with
    | none => simp only [walk, context]
    | some x =>
      by_cases timed : ∃ st, s.stepAt x.list due = some st ∧ st.timed = true
      · obtain ⟨st, step, timed⟩ := timed
        rw [walk_of_timed context step timed, startTimed_holdList]
        rfl
      · rw [walk_of_control context fun st step => Bool.eq_false_iff.2 fun isTimed => timed ⟨st, step, isTimed⟩]
        split
        · exact stall_holdList ..
        · rw [ih]
          rfl

@[simp] theorem walkOn_holdList (c : Slot) (s : State) : (walkOn c s).treat.holdList = s.treat.holdList := by
  unfold walkOn
  split
  · rfl
  · split <;> simp

/-- LISTEN directives have joined the queue, and no more has changed in the Shelf Port. -/
def Listens (s t : State) : Prop :=
  ∃ listens, t.port = { s.port with directives := s.port.directives ++ listens } ∧
    ∀ d ∈ listens, ∃ trunk n, d = Directive.listen trunk n

namespace Listens
variable {s t u : State}

theorem of_port (same : t.port = s.port) : Listens s t := ⟨[], by simp [same], nofun⟩

theorem refl (s : State) : Listens s s := of_port rfl

theorem trans (first : Listens s t) (second : Listens t u) : Listens s u := by
  obtain ⟨ds, port, listen⟩ := first
  obtain ⟨es, port', listen'⟩ := second
  exact ⟨ds ++ es, by rw [port', port, List.append_assoc], List.forall_mem_append.2 ⟨listen, listen'⟩⟩

theorem place (s : State) (trunk : Trunk) (n : Nat) : Listens s (s.place (.listen trunk n)) := by
  by_cases room : 0 < s.free
  · rw [place_placed _ room]
    exact ⟨[.listen trunk n], rfl, by simp⟩
  · have full : ¬ s.port.directives.length < directiveCapacity := by
      unfold State.free at room
      omega
    rw [State.place, if_neg full]
    exact refl s

theorem hearOn (c : Slot) (h : HeardOn) (s : State) : Listens s (hearOn c h s) := by
  unfold Machine.hearOn
  split
  · exact refl s
  · split
    · exact refl s
    · split
      · exact refl s
      · exact (of_port (by simp)).trans (place _ _ _)

theorem setStep (h : Listens s t) (c : Slot) (deadline : Option Nat) (digits : Option (List Nat)) :
    Listens s (setStep c deadline digits t) :=
  h.trans (of_port (by simp))

theorem playClips (c : Slot) (k : Call) (clips : List Nat) (digits : Option (List Nat)) (s : State) :
    Listens s (playClips c k clips digits s) := by
  unfold Machine.playClips
  split
  · exact ((of_port (by simp)).trans (hearOn _ _ _)).setStep _ _ _
  · exact ((of_port rfl).trans (hearOn _ _ _)).setStep _ _ _

theorem startTimed (c : Slot) (k : Call) (st : TreatStep) (s : State) : Listens s (startTimed c k st s) := by
  cases st with
  | bed | silence => exact ((of_port (by simp)).trans (hearOn _ _ _)).setStep _ _ _
  | say | sayValue => exact playClips _ _ _ _ _
  | repeatNext | branch | nest | endList => exact refl s

theorem stall (c : Slot) (k : Call) (due : Nat) (s : State) : Listens s (stall c k due s) := by
  have heard : Listens s (Machine.hearOn c (.bed (s.groupRec k.group).fallback) (releaseVoice c
      { s with treat := { s.treat with stalls := min 65535 (s.treat.stalls + 1) } })) :=
    (of_port (by simp)).trans (hearOn _ _ _)
  rw [stall_eq]
  exact heard.trans (of_port rfl)

theorem walk (c : Slot) (k : Call) (fuel due : Nat) (s : State) : Listens s (walk c k fuel due s) := by
  induction fuel generalizing due s with
  | zero => exact stall c k due s
  | succ n ih =>
    cases context : s.contextAt c with
    | none =>
      simp only [Machine.walk, context]
      exact refl s
    | some x =>
      by_cases timed : ∃ st, s.stepAt x.list due = some st ∧ st.timed = true
      · obtain ⟨st, step, timed⟩ := timed
        rw [walk_of_timed context step timed]
        exact (of_port rfl).trans (startTimed _ _ _ _)
      · rw [walk_of_control context fun st step => Bool.eq_false_iff.2 fun isTimed => timed ⟨st, step, isTimed⟩]
        split
        · exact stall c k due s
        · exact (of_port rfl).trans (ih _ _)

theorem walkOn (c : Slot) (s : State) : Listens s (walkOn c s) := by
  unfold Machine.walkOn
  split
  · exact refl s
  · split
    · exact refl s
    · exact walk _ _ _ _ _

end Listens

/-! ### Held treatments resume (R98) -/

/-- The longest held context has left the hold list. -/
def unheld (c : Slot) (rest : List Slot) (s : State) : State :=
  contextBecomes c (fun x => { x with held := false }) { s with treat := { s.treat with holdList := rest } }

theorem resumeHead_of_held {s : State} {c : Slot} {rest : List Slot} (held : s.treat.holdList = c :: rest) :
    resumeHead s = walkOn c (unheld c rest s) := by
  simp only [resumeHead, held]
  rfl

theorem resumeHead_holdList {s : State} {c : Slot} {rest : List Slot} (held : s.treat.holdList = c :: rest) :
    (resumeHead s).treat.holdList = rest := by
  rw [resumeHead_of_held held, walkOn_holdList]
  rfl

theorem resumeHead_listens (s : State) : Listens s (resumeHead s) := by
  cases held : s.treat.holdList with
  | nil =>
    simp only [resumeHead, held]
    exact .refl s
  | cons c rest =>
    rw [resumeHead_of_held held]
    exact (Listens.of_port rfl).trans (.walkOn _ _)

theorem resumeHeld_of_idle {s : State} (idle : s.treat.holdList = [] ∨ s.free = 0) (n : Nat) : resumeHeld n s = s := by
  cases n with
  | zero => rfl
  | succ n => rw [resumeHeld, if_pos idle]

/-- Every resumption shortens the hold list, so the walk ends with none held or no entry free. -/
theorem resumeHeld_ends {n : Nat} {s : State} (enough : s.treat.holdList.length ≤ n) :
    (resumeHeld n s).treat.holdList = [] ∨ (resumeHeld n s).free = 0 := by
  induction n generalizing s with
  | zero => exact .inl (List.length_eq_zero_iff.1 (Nat.le_zero.1 enough))
  | succ n ih =>
    by_cases idle : s.treat.holdList = [] ∨ s.free = 0
    · rwa [resumeHeld_of_idle idle]
    · obtain ⟨c, rest, held⟩ := List.exists_cons_of_ne_nil (not_or.1 idle).1
      rw [resumeHeld, if_neg idle]
      refine ih ?_
      rw [resumeHead_holdList held]
      rw [held, List.length_cons] at enough
      omega

theorem resumeHeld_shortens (n : Nat) (s : State) :
    (resumeHeld n s).treat.holdList.length ≤ s.treat.holdList.length ∧ Listens s (resumeHeld n s) := by
  induction n generalizing s with
  | zero => exact ⟨le_rfl, .refl s⟩
  | succ n ih =>
    by_cases idle : s.treat.holdList = [] ∨ s.free = 0
    · rw [resumeHeld_of_idle idle]
      exact ⟨le_rfl, .refl s⟩
    · obtain ⟨c, rest, held⟩ := List.exists_cons_of_ne_nil (not_or.1 idle).1
      obtain ⟨shorter, listens⟩ := ih (resumeHead s)
      rw [resumeHead_holdList held] at shorter
      rw [resumeHeld, if_neg idle, held, List.length_cons]
      exact ⟨by omega, (resumeHead_listens s).trans listens⟩

theorem resumeAll_ends (s : State) : (resumeAll s).treat.holdList = [] ∨ (resumeAll s).free = 0 := resumeHeld_ends le_rfl

theorem resumeAll_shortens (s : State) :
    (resumeAll s).treat.holdList.length ≤ s.treat.holdList.length ∧ Listens s (resumeAll s) := resumeHeld_shortens _ s

theorem resumeAll_of_idle {s : State} (idle : s.treat.holdList = [] ∨ s.free = 0) : resumeAll s = s :=
  resumeHeld_of_idle idle _

theorem resumeAll_of_held {s : State} {c : Slot} {rest : List Slot} (held : s.treat.holdList = c :: rest)
    (room : 0 < s.free) : resumeAll s = resumeAll (boundary c (unheld c rest s)) := by
  have busy : ¬ (s.treat.holdList = [] ∨ s.free = 0) := by
    simp [held, room.ne']
  have boundary : boundary c (unheld c rest s) = resumeHead s := by
    rw [boundary, if_pos (by exact room), resumeHead_of_held held]
  rw [boundary, resumeAll, resumeAll, resumeHead_holdList held, held, List.length_cons, resumeHeld, if_neg busy]

/-! ### The end of a timed step (R84, R86, R94) -/

section
variable {s : State} {c : Slot} {k : Call} {x : Context}

/-- The step of a context has ended, with the runs a REPEAT has left (R94). -/
def stepEnded (c : Slot) (x : Context) (repeats : Option Nat) (s : State) : State :=
  callBecomes c (fun k => { k with context := some { x with deadline := none, digits := none, repeats := repeats } }) s

theorem endStep_runs (held : s.callAt c = some k) (context : k.context = some x) {st : TreatStep}
    (step : s.stepAt x.list x.index = some st) {n : Nat} (runs : x.repeats = some (n + 2)) :
    endStep c s = startTimed c k st (stepEnded c x (some (n + 1)) s) := by
  simp only [endStep, held, context, runs, step, alterContext_becomes, contextBecomes_contextBecomes]
  rw [contextBecomes_of_context (contextAt_of_call held context)]
  rfl

theorem endStep_ends (held : s.callAt c = some k) (context : k.context = some x)
    (last : ∀ n, x.repeats ≠ some (n + 2)) : endStep c s = boundary c (stepEnded c x none s) := by
  simp only [endStep, held, context, alterContext_becomes, contextBecomes_contextBecomes]
  rw [contextBecomes_of_context (contextAt_of_call held context)]
  split
  · next runs _ => exact absurd runs (last _)
  · rfl

theorem exec_stepDeadline_reached (held : s.callAt c = some k) (context : k.context = some x) {d : Nat}
    (deadline : x.deadline = some d) (reaches : d ≤ s.now) :
    exec (.stepDeadline c) s = .next (attend s (endDeadline c s)) := by
  have due : reached s.now x.deadline = true := by simp [deadline, reached, reaches]
  change execStepDeadline c s = _
  simp only [execStepDeadline, event_eq, contextAt_of_call held context]
  rw [if_pos due]

theorem exec_stepDeadline_early (early : ∀ x, s.contextAt c = some x → ∀ d, x.deadline = some d → s.now < d) :
    exec (.stepDeadline c) s = .next s := by
  change execStepDeadline c s = _
  rw [execStepDeadline, event_eq]
  cases context : s.contextAt c with
  | none => exact congrArg Host.Outcome.next (attend_self s)
  | some x =>
    have undue : ¬ reached s.now x.deadline = true := by
      cases deadline : x.deadline with
      | none => exact Bool.false_ne_true
      | some d => simpa [reached] using early x context d deadline
    simp only [if_neg undue, attend_self]

theorem endDeadline_of_timed (held : s.callAt c = some k) (context : k.context = some x) {st : TreatStep}
    (step : s.stepAt x.list x.index = some st) (timed : st.timed = true) : endDeadline c s = endStep c s := by
  simp only [endDeadline, contextAt_of_call held context, step, if_pos timed]

theorem endDeadline_of_control (held : s.callAt c = some k) (context : k.context = some x)
    (control : ∀ st, s.stepAt x.list x.index = some st → st.timed = false) : endDeadline c s =
      boundary c (callBecomes c (fun k => { k with context := some { x with deadline := none } }) s) := by
  have at' := contextAt_of_call held context
  simp only [endDeadline, at', alterContext_becomes, contextBecomes_of_context at']
  cases step : s.stepAt x.list x.index with
  | none => rfl
  | some st => simp only [if_neg (Bool.eq_false_iff.1 (control st step))]

end

/-! ### A clip finishes (R91, R93) -/

section
variable {s : State} {v : Voice} {c : Slot} {k : Call} {x : Context}

theorem clipFinished_digit (voice : s.treat.voices[v] = some c) (held : s.callAt c = some k) (context : k.context = some x)
    {d : Nat} {rest : List Nat} (digits : x.digits = some (d :: rest)) : clipFinished v s =
      startStream (voiceStream v) d (contextBecomes c (fun x => { x with digits := some rest }) s) := by
  simp only [clipFinished, voice, contextAt_of_call held context, digits]
  rfl

theorem clipFinished_last (voice : s.treat.voices[v] = some c) (held : s.callAt c = some k) (context : k.context = some x)
    (digits : x.digits = none ∨ x.digits = some []) : clipFinished v s = endStep c s := by
  rcases digits with none | empty
  · simp only [clipFinished, voice, contextAt_of_call held context, none]
  · simp only [clipFinished, voice, contextAt_of_call held context, empty]

end

/-- Settles O42. -/
theorem stepDeadlinesEndTheirSteps : Obligations.StepDeadlinesEndTheirSteps := by
  refine ⟨fun s c k x held context => ⟨fun early => ?_, fun d deadline reaches => ⟨fun control => ?_,
      fun st step timed => ⟨fun n runs => ?_, fun last => ?_⟩⟩⟩,
    fun s c none => exec_stepDeadline_early fun x some => (nomatch none.symm.trans some),
    fun s idle => ?_, fun s => ⟨attend s (resumeAll s), rfl, ?_⟩,
    fun s => ⟨rfl, fun c rest k x held room _ _ => ⟨unheld c rest s, rfl, resumeAll_of_held held room⟩⟩,
    fun s v => ⟨fun free => ?_, fun c k x voice held context => ⟨fun d rest n digits same => ?_,
      fun st digits step => ⟨fun n runs => ?_, fun last => ?_⟩⟩⟩⟩
  · refine exec_stepDeadline_early fun y some => ?_
    cases (contextAt_of_call held context).symm.trans some
    exact early
  · rw [exec_stepDeadline_reached held context deadline reaches, endDeadline_of_control held context control]
  · rw [exec_stepDeadline_reached held context deadline reaches, endDeadline_of_timed held context step timed,
      endStep_runs held context step runs]
    rfl
  · rw [exec_stepDeadline_reached held context deadline reaches, endDeadline_of_timed held context step timed,
      endStep_ends held context last]
    rfl
  · change event resumeAll s = _
    rw [event_eq, resumeAll_of_idle idle, attend_self]
  · obtain ⟨shorter, listens, port, each⟩ := resumeAll_shortens s
    exact ⟨by simpa [State.free] using resumeAll_ends s, by simpa using shorter, by simp, by simp, by simp, by simp,
      by simp, by simp [port], listens, by simp [port], each⟩
  · simp only [clipFinished, free]
  · obtain rfl : n = voiceStream v := Fin.ext same
    exact clipFinished_digit voice held context digits
  · rw [clipFinished_last voice held context digits, endStep_runs held context step runs]
    rfl
  · rw [clipFinished_last voice held context digits, endStep_ends held context last]
    rfl

end Sys2Proof.Machine
end

section
/-! PROOFS of TAKE and of what a removal hands out (R168, R169). What the removal runs through never touches the open
transaction or the bytes driven; so TAKE drives its directive, removes it, and drives zero bytes after it. -/

namespace Sys2Proof.Machine

/-! ### What leaves the open transaction and the bytes driven -/

/-- The transaction and the driven bytes are as they were. -/
abbrev Drives (s t : State) : Prop := t.port.transaction = s.port.transaction ∧ t.port.out = s.port.out

@[simp] theorem place_drives (d : Directive) (s : State) : Drives s (s.place d) := by
  unfold State.place
  split <;> simp [Drives]

@[simp] theorem await_drives (w : RoomWait) (s : State) : Drives s (s.await w) := by
  rw [await_awaited]
  exact ⟨rfl, rfl⟩

@[simp] theorem unawait_drives (w : RoomWait) (s : State) : Drives s (s.unawait w) := ⟨rfl, rfl⟩

@[simp] theorem enter_drives (p : Position) (st : AgentState) (s : State) : Drives s (s.enter p st) := by
  simp only [State.enter]
  split <;> simp [Drives]

@[simp] theorem markCall_drives (c : Slot) (st : CallState) (s : State) : Drives s (s.markCall c st) := by
  cases st <;> simp [Drives, State.markCall]

@[simp] theorem endTreatment_drives (c : Slot) (s : State) : Drives s (endTreatment c s) := by
  unfold endTreatment
  split <;> simp [Drives]

@[simp] theorem freeCall_drives (c : Slot) (s : State) : Drives s (freeCall c s) := by
  unfold freeCall
  split <;> simp [Drives, leaveQueue]

@[simp] theorem takeDivert_drives (c : Slot) (s : State) : Drives s (takeDivert c s) := by
  unfold takeDivert
  split <;> simp [Drives, countDiverted]

@[simp] theorem divertDue_drives (c : Slot) (s : State) : Drives s (divertDue c s) := by
  simp only [divertDue]
  split <;> simp [Drives]

@[simp] theorem startOffer_drives (c : Slot) (k : Call) (p : Station) (g : Group) (s : State) :
    Drives s (startOffer c k p g s) := by
  unfold startOffer
  split <;> simp [Drives]

@[simp] theorem startClaim_drives (p : Position) (h : Station) (g : Group) (score : Nat) (s : State) :
    Drives s (startClaim p h g score s) := by
  unfold startClaim
  split <;> simp [Drives]

@[simp] theorem bindLocal_drives (c : Slot) (k : Call) (p : Position) (s : State) : Drives s (bindLocal c k p s) := by
  unfold bindLocal
  split
  · exact ⟨rfl, rfl⟩
  · split <;> simp [Drives, bind, removeClaim]

@[simp] theorem attemptCall_drives (c : Slot) (s : State) : Drives s (attemptCall c s) := by
  unfold attemptCall
  split
  · exact ⟨rfl, rfl⟩
  · split
    · exact ⟨rfl, rfl⟩
    · split
      · split <;> simp [Drives, deferCallAttempt]
      · simp [Drives]
      · exact ⟨rfl, rfl⟩

@[simp] theorem claimPart_drives (p : Position) (s : State) : Drives s (claimPart p s) := by
  unfold claimPart
  split
  · split
    · exact ⟨rfl, rfl⟩
    · split <;> simp [Drives, deferAgentAttempt]
  · exact ⟨rfl, rfl⟩

@[simp] theorem attemptAgent_drives (full : Bool) (p : Position) (s : State) : Drives s (attemptAgent full p s) := by
  unfold attemptAgent
  split
  · split
    · exact ⟨rfl, rfl⟩
    · split
      · simp [Drives]
      · split <;> simp [Drives]
  · exact ⟨rfl, rfl⟩

theorem foldl_drives {α : Type} {f : State → α → State} (each : ∀ s a, Drives s (f s a)) (l : List α) (s : State) :
    Drives s (l.foldl f s) := by
  induction l generalizing s with
  | nil => exact ⟨rfl, rfl⟩
  | cons a l ih => exact ⟨(ih _).1.trans (each s a).1, (ih _).2.trans (each s a).2⟩

@[simp] theorem retryIfRoom_drives (s : State) : Drives s (retryIfRoom s) := by
  have calls : Drives s (s.queuedSlots.foldl serveCall s) := by
    refine foldl_drives (fun u c => ?_) _ s
    unfold serveCall
    split <;> simp [Drives]
  have agents (u : State) : Drives u ((List.finRange 48).foldl serveAgent u) := by
    refine foldl_drives (fun u p => ?_) _ u
    unfold serveAgent
    split <;> simp [Drives]
  unfold retryIfRoom
  split
  · obtain ⟨transaction, out⟩ := agents (s.queuedSlots.foldl serveCall s)
    rw [retryPass]
    exact ⟨transaction.trans calls.1, out.trans calls.2⟩
  · exact ⟨rfl, rfl⟩

theorem clearMark_drives (c : Slot) (named : Option Station) (rona : Bool) {placing : State → State}
    (places : ∀ u, Drives u (placing u)) (s : State) : Drives s (clearMark c named rona placing s) := by
  unfold clearMark
  split
  · exact ⟨rfl, rfl⟩
  · simp only
    split <;> split <;> simp [Drives, places, countRonaReturn]

@[simp] theorem releaseAlert_drives (p : Position) (b : Binding) (reason : Nat) (s : State) :
    Drives s (releaseAlert p b reason s) := by
  simp only [releaseAlert]
  split
  · split
    · next k _ =>
      obtain ⟨transaction, out⟩ := clearMark_drives b.ref.slot none true (placing := fun t => t.place (.unroute k.trunk))
        (fun u => place_drives _ u) (((s.enter p (.notReady reason)).alterAgent p fun a =>
          { a with counts := { a.counts with rona := count1 a.counts.rona } }).place (.withdraw p))
      exact ⟨transaction.trans (by simp), out.trans (by simp)⟩
    · simp [Drives]
  · simp [Drives]

@[simp] theorem takeWaiter_drives (w : RoomWait) (s : State) : Drives s (takeWaiter w s) := by
  cases w with
  | rona p =>
    simp only [takeWaiter, takeRona]
    split <;> simp [Drives]
  | watch c =>
    simp only [takeWaiter, takeWatch]
    split
    · split
      · exact clearMark_drives c _ false (fun u => by simp [Drives]) s
      all_goals exact ⟨rfl, rfl⟩
    · exact ⟨rfl, rfl⟩
  | divert c => exact takeDivert_drives c s

@[simp] theorem serveWaiters_drives (n : Nat) (s : State) : Drives s (serveWaiters n s) := by
  induction n generalizing s with
  | zero => exact ⟨rfl, rfl⟩
  | succ n ih =>
    unfold serveWaiters
    split
    · exact ⟨rfl, rfl⟩
    · next w _ _ =>
      split
      · exact ⟨(ih _).1.trans (takeWaiter_drives w _).1, (ih _).2.trans (takeWaiter_drives w _).2⟩
      · exact ⟨rfl, rfl⟩

@[simp] theorem resumeAll_drives (s : State) : Drives s (resumeAll s) := by
  obtain ⟨listens, port, -⟩ := (resumeAll_shortens s).2
  simp [Drives, port]

theorem removeHead_drives (s : State) : Drives s (removeHead s) := by
  simp [Drives, removeHead]

/-! ### A removal (R169) -/

/-- The head directive has left the queue. -/
def headTaken (s : State) : State := { s with port := { s.port with directives := s.port.directives.tail } }

theorem removeHead_eq (s : State) : removeHead s = resumeAll (retryIfRoom (serveWaiters 33 (headTaken s))) := rfl

theorem retryIfRoom_of_unmarked {s : State} (unmarked : s.anyDeferred = false) : retryIfRoom s = s :=
  if_neg (by simp [unmarked])

theorem serveWaiters_head (n : Nat) {s : State} {w : RoomWait} {rest : List RoomWait} (waits : s.port.waits = w :: rest)
    (fits : waitNeed s w ≤ s.free) : serveWaiters (n + 1) s = serveWaiters n (takeWaiter w (unawaited w s)) := by
  rw [serveWaiters.eq_def]
  simp only [waits, if_pos fits]
  rfl

theorem waitNeed_rona {s : State} {p : Position} {t d : Nat} {b : Binding} (alerting : (s.agent p).state = .alerting t b d) :
    waitNeed s (.rona p) = if b.isLocal = true then 2 else 1 := by
  simp only [waitNeed, alerting, AgentState.binding, releaseNeed_eq]

/-! ### The bytes of a TAKE (R165, R168) -/

theorem exec_take (c : Clocking) (s : State) : exec (.take c) s =
    .next (attend s (clocked (fun s => .take s.port.directives.head? false) Transaction.isTake c s)) := rfl

theorem opened_take {s : State} (h : NoRestart s) : opened (fun s => .take s.port.directives.head? false) s =
    clockedAt (.take s.port.directives.head? false) [] s := by
  rw [opened, selectRises_raised h]
  rfl

theorem firstBit_take {s : State} {d : Option Directive} {done : Bool} (underway : s.port.transaction = .take d done) :
    firstBit s = s := by
  simp only [firstBit, underway]

theorem lastBit_take_empty {s : State} (due : s.port.transaction = .take none false) :
    lastBit s = clockedAt (.take none true) (s.port.out ++ directiveBytes none) s := by
  simp only [lastBit, firstBit_take due, due]
  rfl

theorem lastBit_take_directive {s : State} {d : Directive} (due : s.port.transaction = .take (some d) false) :
    lastBit s = removeHead (clockedAt (.take (some d) true) (s.port.out ++ directiveBytes (some d)) s) := by
  simp only [lastBit, firstBit_take due, due]
  rfl

/-- A TAKE that has driven its directive drives zero bytes (R165). -/
theorem clockItems_take_done {s : State} {d : Option Directive} (done : s.port.transaction = .take d true) (n : Nat) :
    clockItems n s = clockedAt (.take d true) (s.port.out ++ List.replicate n 0) s := by
  induction n with
  | zero => rw [List.replicate_zero, List.append_nil, ← done]; rfl
  | succ n ih =>
    have later : lastBit (clockedAt (.take d true) (s.port.out ++ List.replicate n 0) s) =
        (clockedAt (.take d true) (s.port.out ++ List.replicate n 0) s).emit [0] := by
      rw [lastBit]
      rfl
    rw [clockItems_succ, ih, later, List.replicate_succ', ← List.append_assoc]
    rfl

/-- Select rises on a TAKE: nothing more happens (R165). -/
theorem selectRises_take (d : Option Directive) (bytes : List Byte) (s : State) :
    selectRises (clockedAt (.take d true) bytes s) = answered s bytes := rfl

theorem exec_take_through_empty {s : State} (h : NoRestart s) (empty : s.port.directives = []) (n : Nat) :
    exec (.take (.through (n + 1))) s = .next (answered s (List.replicate (n + 1) 0)) := by
  have opens := opened_take h
  rw [empty, List.head?_nil] at opens
  have first : clockItems (n + 1) (clockedAt (.take none false) [] s) =
      clockItems n (clockedAt (.take none true) [0] s) :=
    congrArg (clockItems n) (lastBit_take_empty (s := clockedAt (.take none false) [] s) rfl)
  rw [exec_take, clocked, opens, first, clockItems_take_done (s := clockedAt (.take none true) [0] s) rfl]
  exact congrArg Host.Outcome.next (attend_answered s _)

theorem exec_take_through_directive {s : State} (h : NoRestart s) {d : Directive} {rest : List Directive}
    (queue : s.port.directives = d :: rest) (n : Nat) : exec (.take (.through (n + 1))) s =
      .next (attend s (answered (removeHead (clockedAt (.take (some d) true) (directiveBytes (some d)) s))
        (directiveBytes (some d) ++ List.replicate n 0))) := by
  have opens := opened_take h
  rw [queue, List.head?_cons] at opens
  have first : clockItems (n + 1) (clockedAt (.take (some d) false) [] s) =
      clockItems n (removeHead (clockedAt (.take (some d) true) (directiveBytes (some d)) s)) :=
    congrArg (clockItems n) (lastBit_take_directive (s := clockedAt (.take (some d) false) [] s) rfl)
  obtain ⟨transaction, out⟩ := removeHead_drives (clockedAt (.take (some d) true) (directiveBytes (some d)) s)
  rw [exec_take, clocked, opens, first, clockItems_take_done transaction, out, selectRises_take]
  rfl

/-- Settles O33. -/
theorem takeRemovesTheHeadDirective : Obligations.TakeRemovesTheHeadDirective := by
  have station (q : Station) : (lowByte q.val).toNat = q.val := lowByte_toNat_of_byte (by omega)
  have position (p : Position) : (lowByte p.val).toNat = p.val := lowByte_toNat_of_byte (by omega)
  refine ⟨fun t q p tag code slot => ⟨rfl, ?_, ?_, ?_, ?_, ?_, ?_⟩,
    fun s h => ⟨?_, ?_, fun empty n => exec_take_through_empty h empty n,
      fun d rest n queue => ⟨_, rfl, exec_take_through_directive h queue n⟩⟩,
    fun s d due => ?_, fun s quiet none unmarked => ?_, fun s => resumeAll_ends _, removeHead_eq,
    fun s n => ⟨serveWaiters_of_no_waits n, fun w rest waits => ⟨serveWaiters_of_no_room n waits,
      serveWaiters_head n waits⟩⟩,
    fun s w u served waits isU isServed => ⟨fun few => ?_, fun fits left => ?_⟩,
    fun s p t d b alerting => ⟨waitNeed_rona alerting, takeRona_of_alerting alerting⟩,
    fun s c k held => ⟨rfl, rfl, fun q a d me remote station room => takeWatch_of_remote held remote station room,
      fun _ _ room => takeDivert_of_room held room⟩⟩
  · simp [directiveBytes, lowByte_toNat_of_byte t.isLt]
  · simp [directiveBytes, lowByte_toNat_of_byte t.isLt, station q, position p]
  · simp [directiveBytes, lowByte_toNat_of_byte t.isLt]
  · have half := tag.isLt
    simp [directiveBytes, station q, position p]
    omega
  · simp [directiveBytes, position p]
  · simp [directiveBytes, lowByte_toNat_of_byte t.isLt]
  · rw [exec_take, clocked, clockItems, opened_take h]
    exact congrArg Host.Outcome.next (attend_answered s [])
  · rw [exec_take, clocked, opened_take h]
    exact congrArg Host.Outcome.next (attend_transaction s _ _)
  · have underway : s.port.transaction.isTake = true := by rw [due]; rfl
    rw [exec_take, clocked, if_pos underway, lastBit_take_directive due]
    rfl
  · rw [removeHead_eq, serveWaiters_of_no_waits (s := headTaken s) _ quiet,
      retryIfRoom_of_unmarked (s := headTaken s) unmarked, resumeAll_of_idle (s := headTaken s) (.inl none)]
    rfl
  · obtain rfl : u = headTaken s := isU
    rw [removeHead_eq, serveWaiters_of_no_room (s := headTaken s) 33 waits few]
  · obtain rfl : u = headTaken s := isU
    subst isServed
    rw [removeHead_eq, serveWaiters_head (s := headTaken s) 32 waits fits, serveWaiters_of_no_waits 32 left]

end Sys2Proof.Machine
end
